-- ==== Sys2Proof/Word.lean ====
section
/-! DEFINITION. Word.lean: bytes, byte sequences and the status word (00_scope.md R8, R11, R12). -/

namespace Sys2Proof

/-- A byte is an 8-bit unsigned value 0x00..0xFF (R11). -/
abbrev Byte := BitVec 8

/-- A byte sequence is a finite list of bytes, first byte first (R11, R71).
Heads, bodies, keys, values, passwords and read results are byte sequences (D37). -/
abbrev Bytes := List Byte

/-- The status word: 32 bits, unsigned, bit 0 the least significant (`STATUS_WIDTH`, R8, R183). -/
abbrev StatusWord := BitVec 32

end Sys2Proof
end

