-- ==== Sys2Proof/Config.lean ====
section
/-! DEFINITION. Config.lean: the parameters of the block (00_scope.md R8) as one record, the closed sets of names those
parameters speak of, and the three free values. A parameter the spec leaves OPEN is a field of `Params`; the model takes the
record as an argument by holding it in State, where no step writes it. -/

namespace Sys2Proof

/-- The kind of a registry entry: exactly these six values (R47). -/
inductive Kind where
  | text | value | voltage | powerConsumption | alarm | switch
  deriving DecidableEq, Repr

/-- One entry `(key, kind, value)` of the Parameter Registry, or of `SCHEMA` with its initial value (R8, R46). -/
structure Entry where
  key : Bytes
  kind : Kind
  value : Bytes
  deriving DecidableEq, Repr

/-- The 22 fields of the status word, in the order of the table of R183. -/
inductive StatusField where
  | tariff | batteryDischarged | forwardDirection | backwardDirection | capacitiveLoad | inductiveLoad
  | timeCorrectionExhausted | voltageIsUpper | voltageIsLower | clockError | summerTime | crcError | coverOpened
  | batteryExpired | crcMemoryError | crcMetrologicalError
  | scheduledTariff1 | scheduledTariff2 | scheduledTariff3 | scheduledTariff4 | schedulerError | voltageIsNormal
  deriving DecidableEq, Repr

/-- The ten error kinds of R330. -/
inductive ErrorKind where
  | transportTimeout | protocolNak | checksumMismatch | unexpectedHead | inputCancelled
  | retryExhausted | identReplyShort | repeatedChallenge | malformedStatus | frameOverflow
  deriving DecidableEq, Repr

/-- `NEG_FRAMING`: the option-select message goes raw or through ENCODE (R8, R110). -/
inductive NegFraming where
  | raw | encoded
  deriving DecidableEq, Repr

/-- The two host regimes of R311. -/
inductive Regime where
  | daemon      -- unattended polling: the cycle sequencer starts the cycles (R311(a), R312)
  | singleShot  -- a cycle runs when the host asks for one, in the mode it names (R311(b))
  deriving DecidableEq, Repr

/-- The parameters of R8 a model takes as arguments, with the host regime of R311 and the host's stop of the
daemon loop (R319).
`READ_TIMEOUT` and `POLL_INTERVAL` are informative only (R390, R392) and have no field. -/
structure Params where
  /-- `RETRY_LIMIT`: handshake restarts allowed per cycle. -/
  retryLimit : Nat
  /-- `SCHEMA`: the ordered list of (key, kind, initial value). -/
  schema : List Entry
  /-- `STATUS_KEY`: the registry key of a status field; a field with no row here has its own name as its key. -/
  statusKeys : List (StatusField × Bytes)
  /-- `MAX_FRAME_LEN`: the longest read result accepted; `none` is unbounded. -/
  maxFrameLen : Option Nat
  /-- `NEG_FRAMING`. -/
  negFraming : NegFraming
  /-- `ERROR_TEXT`: the text of a reported error; a kind with no row here has the free text `Config.freeErrorText`. -/
  errorTexts : List (ErrorKind × Bytes)
  /-- The host regime (R311). -/
  regime : Regime
  /-- Where the host stops the daemon loop, if it does: in IDLE, once the cycle counter is this value (R319, log 16); `none` is a loop
  that is never stopped. -/
  loopStop : Option Nat
  deriving DecidableEq, Repr

/-- FREE VALUE (log 3): the result of the n-th `Rx()` that no command supplies, any byte sequence, `[]` for a timeout (R278). -/
opaque Config.freeRead : Nat → Bytes

/-- FREE VALUE (log 17): what PARSE_LINE answers for a line that holds an LF, an operand for which R216 states no result. -/
opaque Config.freeLine : Bytes → Option (Bytes × Bytes)

/-- FREE VALUE (log 9): `ERROR_TEXT(kind)` where the parameter record gives none (R8: OPEN, and no default). -/
opaque Config.freeErrorText : ErrorKind → Bytes

end Sys2Proof
end

