-- ==== Sys2Proof/Syntax.lean ====
section
/-! DEFINITION. Syntax.lean: the instructions. One constructor for each row of opcode_table.json: the seven messages the block
sends, the eight kinds of read result it recognises, and the seventeen operations (30_encoding.md R100, R120, R121). -/

namespace Sys2Proof

/-- The session modes (R33, R344). -/
inductive Mode where
  | limitedRead | fullRead | program
  deriving DecidableEq, Repr

/-- The operator's answer at the choice prompt (R52, R268). -/
inductive Choice where
  | read | write | exit
  deriving DecidableEq, Repr

/-- The head of a command frame: `"R1"` or `"W1"` (R43, R114). -/
inductive CmdHead where
  | r1 | w1
  deriving DecidableEq, Repr

/-- The result of DECODE (R18, R151). -/
structure Frame where
  head : Bytes
  body : Bytes
  checksumValid : Bool
  deriving DecidableEq, Repr

/-- The six classes of a decoded response, in their order of priority (R106). -/
inductive RespClass where
  | passwordChallenge | nak | timeout | ack | unexpectedHead | data
  deriving DecidableEq, Repr

/-- The instructions of the block: the rows of opcode_table.json, in the table's order. -/
inductive Instr where
  /-- DISCONNECT: the disconnect frame (R112). -/
  | disconnect
  /-- IDENT: the identification request (R109). -/
  | ident
  /-- OPTSEL: the option-select message sent raw, with baud character z and mode digit y (R110, R111). -/
  | optsel (z y : Byte)
  /-- OPTSEL_ENCODED: the same message sent through ENCODE (R110). -/
  | optselEncoded (z y : Byte)
  /-- PASSWORD: the P1 frame with password pw (R113). -/
  | password (pw : Bytes)
  /-- READ: the R1 frame with command text t (R114). -/
  | read (t : Bytes)
  /-- WRITE: the W1 frame with command text t (R114). -/
  | write (t : Bytes)
  /-- RX_IDENT_REPLY: the read result r taken as an identification reply (R107, R244). -/
  | rxIdentReply (r : Bytes)
  /-- RX_P0: a read result of class PasswordChallenge (R248, R249, R252, R253). -/
  | rxP0 (r : Bytes)
  /-- RX_NAK: a read result of class Nak (R250). -/
  | rxNak (r : Bytes)
  /-- RX_TIMEOUT: a read result of class Timeout, the empty one among them (R251). -/
  | rxTimeout (r : Bytes)
  /-- RX_ACK: a read result of class Ack (R254). -/
  | rxAck (r : Bytes)
  /-- RX_UNEXPECTED_HEAD: a read result of class UnexpectedHead (R256). -/
  | rxUnexpectedHead (r : Bytes)
  /-- RX_DATA_VALID: a read result of class Data whose checksum is valid (R255). -/
  | rxDataValid (r : Bytes)
  /-- RX_DATA_INVALID: a read result of class Data whose checksum is not valid (R257). -/
  | rxDataInvalid (r : Bytes)
  /-- ENCODE (R141). -/
  | encode (head body : Bytes)
  /-- CHECKSUM (R145). -/
  | checksum (bs : Bytes)
  /-- DECODE (R150, R151). -/
  | decode (bs : Bytes)
  /-- STATUS_PARSE (R181). -/
  | statusParse (text : Bytes)
  /-- STATUS_DECODE (R184). -/
  | statusDecode (w : StatusWord)
  /-- REG_UPDATE (R211). -/
  | regUpdate (key value : Bytes)
  /-- REG_SNAPSHOT (R214). -/
  | regSnapshot
  /-- PARSE_LINE (R216). -/
  | parseLine (line : Bytes)
  /-- PARSE_BODY (R217). -/
  | parseBody (body : Bytes)
  /-- APPLY_FRAME (R218). -/
  | applyFrame (body : Bytes)
  /-- CLASSIFY (R247). -/
  | classify (f : Frame)
  /-- STEP: the one session step of the current phase (R241). -/
  | step
  /-- START: the host command that opens a cycle (R313). -/
  | start (mode : Mode)
  /-- INPUT: the operator's text answer (R258, R269). -/
  | input (bs : Bytes)
  /-- CHOICE: the operator's choice (R268). -/
  | choice (c : Choice)
  /-- CANCEL: the operator's end of input (R258, R268, R269, R357). -/
  | cancel
  /-- ERROR: the step that reports the error and abandons the cycle (R333). -/
  | error
  deriving DecidableEq, Repr

end Sys2Proof
end

