-- ==== Sys2Proof/Machine/Codec.lean ====
section
/-! DEFINITION. Machine/Codec.lean: the Frame Codec (40_frame_codec.md): CHECKSUM, ENCODE, DECODE, and CLASSIFY
(43_session.md R247). All are pure and total and retain no state (R140). -/

namespace Sys2Proof.Machine

/-- The control bytes (R101), with LF and CR (R11). -/
abbrev soh : Byte := 0x01
abbrev stx : Byte := 0x02
abbrev etx : Byte := 0x03
abbrev ackByte : Byte := 0x06
abbrev nakByte : Byte := 0x15
abbrev lf : Byte := 0x0A
abbrev cr : Byte := 0x0D

/-- `CHECKSUM_MODULUS` (R8). -/
abbrev checksumModulus : Nat := 128

/-- The transient scan state of CHECKSUM (R50). -/
structure SumScan where
  accumulating : Bool
  sum : Nat
  deriving DecidableEq, Repr

/-- CHECKSUM's treatment of one byte: the first SOH or STX starts the accumulation and is not added, and every later byte is
added, markers included (R145). An ETX before the first SOH or STX is neither (R148). -/
def SumScan.feed (c : SumScan) (b : Byte) : SumScan :=
  if c.accumulating then { c with sum := (c.sum + b.toNat) % checksumModulus }
  else if b = soh ∨ b = stx then { c with accumulating := true }
  else c

/-- CHECKSUM(bs) (R145). -/
def checksum (bs : Bytes) : Byte :=
  BitVec.ofNat 8 (bs.foldl SumScan.feed ⟨false, 0⟩).sum

/-- The bytes of an encoded frame before its check byte (R102, R141). -/
def frameBytes (head body : Bytes) : Bytes :=
  (if head = [] then [] else soh :: head) ++ (if body = [] then [] else stx :: body) ++ [etx]

/-- ENCODE(head, body) (R102, R141); nothing is inspected or escaped (R142). -/
def encodeFrame (head body : Bytes) : Bytes :=
  frameBytes head body ++ [checksum (frameBytes head body)]

/-- The transient capture state of DECODE (R50). -/
structure CapScan where
  capHead : Bool
  capBody : Bool
  head : Bytes
  body : Bytes
  deriving DecidableEq, Repr

/-- DECODE's treatment of one scanned byte: the markers open and close the two regions and are never captured (R151, R153); a
region opened again appends (R154). -/
def CapScan.feed (c : CapScan) (b : Byte) : CapScan :=
  if b = soh then { c with capHead := true, capBody := false }
  else if b = stx then { c with capHead := false, capBody := true }
  else if b = etx then { c with capHead := false, capBody := false }
  else if c.capHead then { c with head := c.head ++ [b] }
  else if c.capBody then { c with body := c.body ++ [b] }
  else c

/-- DECODE(bs): the short-input shortcut (R150), else the scan of every byte but the last (R151, R156), whose value is the
claimed checksum and is compared in all 8 bits (R152). -/
def decodeFrame (bs : Bytes) : Frame :=
  if bs.length ≤ 1 then { head := [], body := bs, checksumValid := true }
  else
    let scan := bs.dropLast
    let cap := scan.foldl CapScan.feed ⟨false, false, [], []⟩
    { head := cap.head, body := cap.body, checksumValid := decide (bs.getLast? = some (checksum scan)) }

/-- The heads the spec names: `"B0"`, `"P0"`, `"P1"`, `"R1"`, `"W1"` (R112 to R114, R106). -/
abbrev headB0 : Bytes := [0x42, 0x30]
abbrev headP0 : Bytes := [0x50, 0x30]
abbrev headP1 : Bytes := [0x50, 0x31]
abbrev headR1 : Bytes := [0x52, 0x31]
abbrev headW1 : Bytes := [0x57, 0x31]

/-- CLASSIFY(f): the first condition that holds, in the order of R106 and R247. -/
def classify (f : Frame) : RespClass :=
  if f.head = headP0 then .passwordChallenge
  else if f.body = [nakByte] then .nak
  else if f.body = [] then .timeout
  else if f.body = [ackByte] then .ack
  else if f.head ≠ [] ∧ f.head ≠ headB0 then .unexpectedHead
  else .data

end Sys2Proof.Machine
end

