-- ==== Sys2Proof/Machine/Operands.lean ====
section
/-! DEFINITION. Machine/Operands.lean: how the messages the block sends are put together from their operands
(30_encoding.md R109 to R114, R120). -/

namespace Sys2Proof.Machine

/-- DISCONNECT = ENCODE("B0", "") (R112). -/
def disconnectMsg : Bytes := encodeFrame headB0 []

/-- IDENT = `"/?!\r\n"`, sent raw (R109). -/
def identMsg : Bytes := [0x2F, 0x3F, 0x21, 0x0D, 0x0A]

/-- OPTSEL(z, y): `06 30 z y 0D 0A` (R110). -/
def optselMsg (z y : Byte) : Bytes := [0x06, 0x30, z, y, 0x0D, 0x0A]

/-- OPTSEL_ENCODED(z, y) = ENCODE("", the six bytes of OPTSEL) (R110). -/
def optselEncodedMsg (z y : Byte) : Bytes := encodeFrame [] (optselMsg z y)

/-- The option-select message as `NEG_FRAMING` has it sent (R110, R246). -/
def negotiationMsg (framing : NegFraming) (z y : Byte) : Bytes :=
  match framing with
  | .raw => optselMsg z y
  | .encoded => optselEncodedMsg z y

/-- PASSWORD(pw) = ENCODE("P1", "(" ++ pw ++ ")") (R113). -/
def passwordMsg (pw : Bytes) : Bytes := encodeFrame headP1 ([0x28] ++ pw ++ [0x29])

/-- The two bytes of a command head (R43, R114). -/
def cmdHeadBytes : CmdHead → Bytes
  | .r1 => headR1
  | .w1 => headW1

/-- READ(t) and WRITE(t): ENCODE("R1", t) and ENCODE("W1", t) (R114). -/
def commandMsg (h : CmdHead) (t : Bytes) : Bytes := encodeFrame (cmdHeadBytes h) t

end Sys2Proof.Machine
end

