-- ==== Sys2Proof/WellFormed.lean ====
section
/-! DEFINITION. WellFormed.lean: the checks on an instruction's operands that the opcode table and its rules state. -/

namespace Sys2Proof

open Sys2Proof.Machine

/-- A mode digit is `'0'`, `'1'` or `'6'` (R111). -/
def isModeDigit (y : Byte) : Bool := y == 0x30 || y == 0x31 || y == 0x36

/-- The class of a read result taken as a response (R106, R248). -/
def responseClass (r : Bytes) : RespClass := classify (decodeFrame r)

/-- The operands an instruction of the table may have. A mode digit is one of three (R111), an identification reply has five or
more bytes (R107), and a received row holds a read result of its own class (R106). An operation runs on every operand of its
signature (R121). -/
def Instr.wf : Instr → Bool
  | .disconnect => true
  | .ident => true
  | .optsel _ y => isModeDigit y
  | .optselEncoded _ y => isModeDigit y
  | .password _ => true
  | .read _ => true
  | .write _ => true
  | .rxIdentReply r => decide (5 ≤ r.length)
  | .rxP0 r => decide (responseClass r = .passwordChallenge)
  | .rxNak r => decide (responseClass r = .nak)
  | .rxTimeout r => decide (responseClass r = .timeout)
  | .rxAck r => decide (responseClass r = .ack)
  | .rxUnexpectedHead r => decide (responseClass r = .unexpectedHead)
  | .rxDataValid r => decide (responseClass r = .data) && (decodeFrame r).checksumValid
  | .rxDataInvalid r => decide (responseClass r = .data) && !(decodeFrame r).checksumValid
  | .encode _ _ => true
  | .checksum _ => true
  | .decode _ => true
  | .statusParse _ => true
  | .statusDecode _ => true
  | .regUpdate _ _ => true
  | .regSnapshot => true
  | .parseLine _ => true
  | .parseBody _ => true
  | .applyFrame _ => true
  | .classify _ => true
  | .step => true
  | .start _ => true
  | .input _ => true
  | .choice _ => true
  | .cancel => true
  | .error => true

end Sys2Proof
end

