-- ==== Sys2Proof/Decode.lean ====
section
/-! DEFINITION. Decode.lean: from the block's two encoded surfaces (30_encoding.md R100) to instructions, and back. The wire
surface is bytes with a direction; the operation surface is a closed tagged variant with no numeric encoding (R121, D2). -/

namespace Sys2Proof

open Sys2Proof.Machine

/-- One item of the command interface: a message the block is to send, a read result that arrives from the Transport, or an
operation of R121. -/
inductive Command where
  | tx (bs : Bytes)
  | rx (bs : Bytes)
  | op (i : Instr)
  deriving DecidableEq, Repr

/-- Why a command is no instruction. -/
inductive DecodeError where
  /-- The bytes are none of the messages of R120. -/
  | notATransmission
  /-- The last byte is not the CHECKSUM of the bytes before it (R102). -/
  | wrongCheckByte
  /-- The mode digit is none of `'0'`, `'1'`, `'6'` (R111). -/
  | wrongModeDigit
  /-- STX stands before an empty body, where ENCODE omits it (R102). -/
  | stxBeforeEmptyBody
  /-- A row of the wire surface given as an operation (R100). -/
  | notAnOperation
  deriving DecidableEq, Repr

/-- The rest of `bs` after the prefix `p`. -/
def afterPrefix : Bytes → Bytes → Option Bytes
  | [], bs => some bs
  | _ :: _, [] => none
  | a :: p, b :: bs => if a = b then afterPrefix p bs else none

/-- The bytes of `bs` before its last byte, where that byte is `b`. -/
def beforeLast (b : Byte) (bs : Bytes) : Option Bytes :=
  if bs.getLast? = some b then some bs.dropLast else none

/-- The baud character and mode digit of the six bytes `06 30 z y 0D 0A` (R110). -/
def optselOperands : Bytes → Except DecodeError (Byte × Byte)
  | [a, b, z, y, c, d] =>
    if a = 0x06 ∧ b = 0x30 ∧ c = 0x0D ∧ d = 0x0A then
      if isModeDigit y then .ok (z, y) else .error .wrongModeDigit
    else .error .notATransmission
  | _ => .error .notATransmission

/-- The command text after the head of an R1 or W1 frame: the STX and body part is present iff the text is not empty (R102). -/
def commandText : Bytes → Except DecodeError Bytes
  | [] => .ok []
  | b :: t =>
    if b = stx then
      if t = [] then .error .stxBeforeEmptyBody else .ok t
    else .error .notATransmission

/-- A framed message from the bytes between its first byte and its ETX, both the ETX and the check byte taken off
(R110 Encoded, R113, R114). -/
def decodeFramed (inner : Bytes) : Except DecodeError Instr :=
  match afterPrefix [soh, 0x50, 0x31, stx, 0x28] inner with
  | some rest =>
    match beforeLast 0x29 rest with
    | some pw => .ok (.password pw)
    | none => .error .notATransmission
  | none =>
    match afterPrefix [soh, 0x52, 0x31] inner with
    | some rest => (commandText rest).map .read
    | none =>
      match afterPrefix [soh, 0x57, 0x31] inner with
      | some rest => (commandText rest).map .write
      | none =>
        match afterPrefix [stx] inner with
        | some rest => (optselOperands rest).map fun zy => .optselEncoded zy.1 zy.2
        | none => .error .notATransmission

/-- A message the block sends, from its bytes: the rows of opcode_table.json whose format is wire-tx. -/
def decodeTx (bs : Bytes) : Except DecodeError Instr :=
  if bs = [0x01, 0x42, 0x30, 0x03, 0x75] then .ok .disconnect
  else if bs = [0x2F, 0x3F, 0x21, 0x0D, 0x0A] then .ok .ident
  else if bs.head? = some ackByte then (optselOperands bs).map fun zy => .optsel zy.1 zy.2
  else
    match beforeLast etx bs.dropLast with
    | none => .error .notATransmission
    | some inner =>
      if bs.getLast? = some (Machine.checksum bs.dropLast) then decodeFramed inner else .error .wrongCheckByte

/-- The row of a read result taken as a response: its class, and for data its checksum (R106, R248). -/
def decodeResponse (r : Bytes) : Instr :=
  match responseClass r with
  | .passwordChallenge => .rxP0 r
  | .nak => .rxNak r
  | .timeout => .rxTimeout r
  | .ack => .rxAck r
  | .unexpectedHead => .rxUnexpectedHead r
  | .data => if (decodeFrame r).checksumValid then .rxDataValid r else .rxDataInvalid r

/-- The row of a read result: every byte sequence is one (R105). Where the block awaits an identification reply, a result of
five or more bytes is one (R107); a shorter one is named by its class and treated as R244 says. -/
def decodeRx (identifying : Bool) (r : Bytes) : Instr :=
  if identifying ∧ 5 ≤ r.length then .rxIdentReply r else decodeResponse r

/-- The rows of the operation surface (R121, and the ERROR step of R333). -/
def Instr.isOperation : Instr → Bool
  | .disconnect | .ident | .optsel _ _ | .optselEncoded _ _ | .password _ | .read _ | .write _ => false
  | .rxIdentReply _ | .rxP0 _ | .rxNak _ | .rxTimeout _ | .rxAck _ | .rxUnexpectedHead _ => false
  | .rxDataValid _ | .rxDataInvalid _ => false
  | .encode _ _ | .checksum _ | .decode _ | .statusParse _ | .statusDecode _ | .regUpdate _ _ | .regSnapshot => true
  | .parseLine _ | .parseBody _ | .applyFrame _ | .classify _ => true
  | .step | .start _ | .input _ | .choice _ | .cancel | .error => true

/-- The decoder of the command interface. `identifying` says that the block awaits an identification reply. -/
def decodeCommand (identifying : Bool) : Command → Except DecodeError Instr
  | .tx bs => decodeTx bs
  | .rx r => .ok (decodeRx identifying r)
  | .op i =>
    if i.isOperation then .ok i else .error .notAnOperation

/-- The encoder: the bytes of a wire row with their direction, the tagged value of an operation. -/
def encode : Instr → Command
  | .disconnect => .tx disconnectMsg
  | .ident => .tx identMsg
  | .optsel z y => .tx (optselMsg z y)
  | .optselEncoded z y => .tx (optselEncodedMsg z y)
  | .password pw => .tx (passwordMsg pw)
  | .read t => .tx (commandMsg .r1 t)
  | .write t => .tx (commandMsg .w1 t)
  | .rxIdentReply r => .rx r
  | .rxP0 r => .rx r
  | .rxNak r => .rx r
  | .rxTimeout r => .rx r
  | .rxAck r => .rx r
  | .rxUnexpectedHead r => .rx r
  | .rxDataValid r => .rx r
  | .rxDataInvalid r => .rx r
  | .encode h b => .op (.encode h b)
  | .checksum bs => .op (.checksum bs)
  | .decode bs => .op (.decode bs)
  | .statusParse t => .op (.statusParse t)
  | .statusDecode w => .op (.statusDecode w)
  | .regUpdate k v => .op (.regUpdate k v)
  | .regSnapshot => .op .regSnapshot
  | .parseLine l => .op (.parseLine l)
  | .parseBody b => .op (.parseBody b)
  | .applyFrame b => .op (.applyFrame b)
  | .classify f => .op (.classify f)
  | .step => .op .step
  | .start m => .op (.start m)
  | .input bs => .op (.input bs)
  | .choice c => .op (.choice c)
  | .cancel => .op .cancel
  | .error => .op .error

/-- Whether an instruction is read where an identification reply is awaited. -/
def Instr.identifying : Instr → Bool
  | .rxIdentReply _ => true
  | _ => false

/-- The `n` bytes of a number whose bits 7..0 are the first byte, 15..8 the second, and so on. -/
def bytesOfNat : Nat → Nat → Bytes
  | 0, _ => []
  | n + 1, w => BitVec.ofNat 8 w :: bytesOfNat n (w / 256)

/-- An instruction from bytes alone, which carry no direction (log 6): a message the block sends where the bytes are one; else an
identification reply where they have its form, five or more bytes with a leading `/`; else a response. -/
def decodeBytes (bs : Bytes) : Option Instr :=
  match decodeTx bs with
  | .ok i => some i
  | .error _ => some (decodeRx (decide (bs.head? = some 0x2F)) bs)

/-- The instruction of a table word of `nbits` bits, numbered as opcode_table.json numbers them. -/
def decodeTableWord (nbits w : Nat) : Option Instr := decodeBytes (bytesOfNat (nbits / 8) w)

end Sys2Proof
end

