-- ==== Sys2Proof/Machine/Status.lean ====
section
/-! DEFINITION. Machine/Status.lean: the Status Field Decoder (41_status_decoder.md): STATUS_PARSE, the bit map, STATUS_DECODE,
the text of an output, and the registry key of a field. -/

namespace Sys2Proof.Machine

/-- The value of one hexadecimal digit, upper or lower case; `none` for any other byte (R181, R182). -/
def hexDigit (c : Byte) : Option Nat :=
  if 0x30 ≤ c.toNat ∧ c.toNat ≤ 0x39 then some (c.toNat - 0x30)
  else if 0x41 ≤ c.toNat ∧ c.toNat ≤ 0x46 then some (c.toNat - 0x41 + 10)
  else if 0x61 ≤ c.toNat ∧ c.toNat ≤ 0x66 then some (c.toNat - 0x61 + 10)
  else none

/-- The number read from hexadecimal text, most significant digit first, on from the value `v` (R72, R181). -/
def hexValue : Nat → Bytes → Option Nat
  | v, [] => some v
  | v, c :: cs =>
    match hexDigit c with
    | some d => hexValue (v * 16 + d) cs
    | none => none

/-- STATUS_PARSE(text) (R181): `none` is MalformedStatus, for the empty text and for any byte that is no hex digit; the value
is taken modulo 2^32 (R182). -/
def statusParse (text : Bytes) : Option StatusWord :=
  if text = [] then none else (hexValue 0 text).map (BitVec.ofNat 32)

/-- The 22 status fields in the order of R183. -/
def statusFields : List StatusField :=
  [.tariff, .batteryDischarged, .forwardDirection, .backwardDirection, .capacitiveLoad, .inductiveLoad,
   .timeCorrectionExhausted, .voltageIsUpper, .voltageIsLower, .clockError, .summerTime, .crcError, .coverOpened,
   .batteryExpired, .crcMemoryError, .crcMetrologicalError, .scheduledTariff1, .scheduledTariff2, .scheduledTariff3,
   .scheduledTariff4, .schedulerError, .voltageIsNormal]

/-- The single bit n of w, as 0 or 1 (R12). -/
def bitOf (w : StatusWord) (n : Nat) : Nat := (w.getLsbD n).toNat

/-- The value of one status field: the formula column of R183. -/
def statusValue (w : StatusWord) : StatusField → Nat
  | .tariff => (w &&& 0x7).toNat
  | .batteryDischarged => bitOf w 3
  | .forwardDirection => 1 - bitOf w 7
  | .backwardDirection => bitOf w 7
  | .capacitiveLoad => 1 - bitOf w 8
  | .inductiveLoad => bitOf w 8
  | .timeCorrectionExhausted => bitOf w 9
  | .voltageIsUpper => bitOf w 10
  | .voltageIsLower => bitOf w 11
  | .clockError => bitOf w 12
  | .summerTime => bitOf w 14
  | .crcError => bitOf w 16
  | .coverOpened => bitOf w 17
  | .batteryExpired => bitOf w 19
  | .crcMemoryError => bitOf w 20
  | .crcMetrologicalError => bitOf w 21
  | .scheduledTariff1 => bitOf w 24
  | .scheduledTariff2 => bitOf w 25
  | .scheduledTariff3 => bitOf w 26
  | .scheduledTariff4 => bitOf w 27
  | .schedulerError => bitOf w 28
  | .voltageIsNormal => if w &&& 0x0C00 = 0 then 1 else 0

/-- STATUS_DECODE(w): the 22 (name, integer) pairs in table order (R184). -/
def statusDecode (w : StatusWord) : List (StatusField × Nat) :=
  statusFields.map fun f => (f, statusValue w f)

/-- The output text of a status value: one ASCII decimal digit (R190). -/
def statusText (x : Nat) : Bytes := [BitVec.ofNat 8 (0x30 + x)]

/-- The field names of R183, as ASCII. -/
def statusName : StatusField → Bytes
  | .tariff => -- Tariff
    [0x54, 0x61, 0x72, 0x69, 0x66, 0x66]
  | .batteryDischarged => -- battery-discharged
    [0x62, 0x61, 0x74, 0x74, 0x65, 0x72, 0x79, 0x2D, 0x64, 0x69, 0x73, 0x63, 0x68, 0x61, 0x72, 0x67, 0x65, 0x64]
  | .forwardDirection => -- forward-direction
    [0x66, 0x6F, 0x72, 0x77, 0x61, 0x72, 0x64, 0x2D, 0x64, 0x69, 0x72, 0x65, 0x63, 0x74, 0x69, 0x6F, 0x6E]
  | .backwardDirection => -- backward-direction
    [0x62, 0x61, 0x63, 0x6B, 0x77, 0x61, 0x72, 0x64, 0x2D, 0x64, 0x69, 0x72, 0x65, 0x63, 0x74, 0x69, 0x6F, 0x6E]
  | .capacitiveLoad => -- capacitive-load
    [0x63, 0x61, 0x70, 0x61, 0x63, 0x69, 0x74, 0x69, 0x76, 0x65, 0x2D, 0x6C, 0x6F, 0x61, 0x64]
  | .inductiveLoad => -- inductive-load
    [0x69, 0x6E, 0x64, 0x75, 0x63, 0x74, 0x69, 0x76, 0x65, 0x2D, 0x6C, 0x6F, 0x61, 0x64]
  | .timeCorrectionExhausted => -- time-correction-exhausted
    [0x74, 0x69, 0x6D, 0x65, 0x2D, 0x63, 0x6F, 0x72, 0x72, 0x65, 0x63, 0x74, 0x69, 0x6F, 0x6E, 0x2D, 0x65, 0x78, 0x68, 0x61, 0x75, 0x73, 0x74, 0x65, 0x64]
  | .voltageIsUpper => -- voltage-is-upper
    [0x76, 0x6F, 0x6C, 0x74, 0x61, 0x67, 0x65, 0x2D, 0x69, 0x73, 0x2D, 0x75, 0x70, 0x70, 0x65, 0x72]
  | .voltageIsLower => -- voltage-is-lower
    [0x76, 0x6F, 0x6C, 0x74, 0x61, 0x67, 0x65, 0x2D, 0x69, 0x73, 0x2D, 0x6C, 0x6F, 0x77, 0x65, 0x72]
  | .clockError => -- clock-error
    [0x63, 0x6C, 0x6F, 0x63, 0x6B, 0x2D, 0x65, 0x72, 0x72, 0x6F, 0x72]
  | .summerTime => -- summer-time
    [0x73, 0x75, 0x6D, 0x6D, 0x65, 0x72, 0x2D, 0x74, 0x69, 0x6D, 0x65]
  | .crcError => -- crc-error
    [0x63, 0x72, 0x63, 0x2D, 0x65, 0x72, 0x72, 0x6F, 0x72]
  | .coverOpened => -- cover-opened
    [0x63, 0x6F, 0x76, 0x65, 0x72, 0x2D, 0x6F, 0x70, 0x65, 0x6E, 0x65, 0x64]
  | .batteryExpired => -- battery-expired
    [0x62, 0x61, 0x74, 0x74, 0x65, 0x72, 0x79, 0x2D, 0x65, 0x78, 0x70, 0x69, 0x72, 0x65, 0x64]
  | .crcMemoryError => -- crc-memory-error
    [0x63, 0x72, 0x63, 0x2D, 0x6D, 0x65, 0x6D, 0x6F, 0x72, 0x79, 0x2D, 0x65, 0x72, 0x72, 0x6F, 0x72]
  | .crcMetrologicalError => -- crc-metrological-error
    [0x63, 0x72, 0x63, 0x2D, 0x6D, 0x65, 0x74, 0x72, 0x6F, 0x6C, 0x6F, 0x67, 0x69, 0x63, 0x61, 0x6C, 0x2D, 0x65, 0x72, 0x72, 0x6F, 0x72]
  | .scheduledTariff1 => -- scheduled-tariff-1
    [0x73, 0x63, 0x68, 0x65, 0x64, 0x75, 0x6C, 0x65, 0x64, 0x2D, 0x74, 0x61, 0x72, 0x69, 0x66, 0x66, 0x2D, 0x31]
  | .scheduledTariff2 => -- scheduled-tariff-2
    [0x73, 0x63, 0x68, 0x65, 0x64, 0x75, 0x6C, 0x65, 0x64, 0x2D, 0x74, 0x61, 0x72, 0x69, 0x66, 0x66, 0x2D, 0x32]
  | .scheduledTariff3 => -- scheduled-tariff-3
    [0x73, 0x63, 0x68, 0x65, 0x64, 0x75, 0x6C, 0x65, 0x64, 0x2D, 0x74, 0x61, 0x72, 0x69, 0x66, 0x66, 0x2D, 0x33]
  | .scheduledTariff4 => -- scheduled-tariff-4
    [0x73, 0x63, 0x68, 0x65, 0x64, 0x75, 0x6C, 0x65, 0x64, 0x2D, 0x74, 0x61, 0x72, 0x69, 0x66, 0x66, 0x2D, 0x34]
  | .schedulerError => -- scheduler-error
    [0x73, 0x63, 0x68, 0x65, 0x64, 0x75, 0x6C, 0x65, 0x72, 0x2D, 0x65, 0x72, 0x72, 0x6F, 0x72]
  | .voltageIsNormal => -- voltage-is-normal
    [0x76, 0x6F, 0x6C, 0x74, 0x61, 0x67, 0x65, 0x2D, 0x69, 0x73, 0x2D, 0x6E, 0x6F, 0x72, 0x6D, 0x61, 0x6C]

/-- `STATUS_KEY(f)`: the key the parameter record gives, else the field name (R8, R183, D18). -/
def statusKey (p : Params) (f : StatusField) : Bytes := (p.statusKeys.lookup f).getD (statusName f)

end Sys2Proof.Machine
end

