-- ==== Sys2Proof/Machine/Registry.lean ====
section
/-! DEFINITION. Machine/Registry.lean: the Parameter Registry as data (42_registry.md, 10_state.md R46 to R48): look-up, update,
snapshot, the form a registry has, the parsing of a data-frame body, and APPLY_FRAME. -/

namespace Sys2Proof.Machine

/-- REG_UPDATE(key, value) on a list of entries: the first entry with that key, compared byte for byte, gets the value in place
(R211, R213); an unknown key changes nothing and answers false (R212). -/
def regUpdate (key value : Bytes) : List Entry → List Entry × Bool
  | [] => ([], false)
  | e :: es =>
    if e.key = key then ({ e with value := value } :: es, true)
    else (e :: (regUpdate key value es).1, (regUpdate key value es).2)

/-- RegRead(key): the value of the entry with that key (R15). -/
def regRead (key : Bytes) (reg : List Entry) : Option Bytes :=
  (reg.find? fun e => decide (e.key = key)).map Entry.value

/-- REG_SNAPSHOT(): every entry, in schema order (R214). -/
def regSnapshot (reg : List Entry) : List (Bytes × Kind × Bytes) := reg.map fun e => (e.key, e.kind, e.value)

/-- The schema declaration list: the (key, kind) pairs of the snapshot (R215). -/
def declarationList (reg : List Entry) : List (Bytes × Kind) := (regSnapshot reg).map fun e => (e.1, e.2.1)

/-- The keys and kinds of a registry, in order: what never changes after reset (R46). -/
def regLayout (reg : List Entry) : List (Bytes × Kind) := reg.map fun e => (e.key, e.kind)

/-- Keys are unique within a registry (R46, R376). -/
abbrev keysUnique (reg : List Entry) : Prop := (reg.map Entry.key).Nodup

/-- `KEY` of the status word: `"STAT_"` (R218). -/
abbrev statKey : Bytes := [0x53, 0x54, 0x41, 0x54, 0x5F]

/-- A line without one trailing CR (R216). -/
def dropTrailingCr (l : Bytes) : Bytes := if l.getLast? = some cr then l.dropLast else l

/-- PARSE_LINE(line): KEY is every byte before the first `(` and is not empty, the line ends in `)`, and the value is every byte
between the two (R216). -/
def parseLine (line : Bytes) : Option (Bytes × Bytes) :=
  let l := dropTrailingCr line
  match l.dropWhile fun b => decide (b ≠ 0x28) with
  | [] => none
  | _ :: rest =>
    let key := l.takeWhile fun b => decide (b ≠ 0x28)
    if key = [] then none
    else if rest.getLast? = some 0x29 then some (key, rest.dropLast)
    else none

/-- The answer of PARSE_LINE: `parseLine` on a line of R216, which holds no LF; for a line that holds one R216 states no result, and
the answer is free (log 17). -/
def parseLineAnswer (line : Bytes) : Option (Bytes × Bytes) :=
  if lf ∈ line then Config.freeLine line else parseLine line

/-- The lines of a body: it is split at every LF, k LF bytes giving k+1 lines (R108, R217). -/
def splitLines : Bytes → List Bytes
  | [] => [[]]
  | b :: bs =>
    if b = lf then [] :: splitLines bs
    else
      match splitLines bs with
      | l :: ls => (b :: l) :: ls
      | [] => [[b]]

/-- PARSE_BODY(body): the pairs of the lines that match, in body order (R217). -/
def parseBody (body : Bytes) : List (Bytes × Bytes) := (splitLines body).filterMap parseLine

/-- The status fields written at the position of a `STAT_` line, each under its key (R218, R219). -/
def writeStatus (p : Params) (w : StatusWord) (reg : List Entry) : List Entry :=
  (statusDecode w).foldl (fun r fx => (regUpdate (statusKey p fx.1) (statusText fx.2) r).1) reg

/-- One parsed pair applied to the copy R' of the registry: the update, and for the parsed key `"STAT_"` the status decode, whether
or not the registry has that key (R218, R220); `none` is MalformedStatus. -/
def applyPair (p : Params) (kv : Bytes × Bytes) (reg : List Entry) : Option (List Entry) :=
  let r := (regUpdate kv.1 kv.2 reg).1
  if kv.1 = statKey then (statusParse kv.2).map fun w => writeStatus p w r else some r

/-- The pairs applied in body order (R219). -/
def applyPairs (p : Params) : List (Bytes × Bytes) → List Entry → Option (List Entry)
  | [], reg => some reg
  | kv :: kvs, reg => (applyPair p kv reg).bind (applyPairs p kvs)

/-- APPLY_FRAME(body) on a copy of the registry: the registry to commit, or `none` for MalformedStatus, where the registry stays
exactly as it was (R218). -/
def applyFrame (p : Params) (body : Bytes) (reg : List Entry) : Option (List Entry) :=
  applyPairs p (parseBody body) reg

end Sys2Proof.Machine
end

