-- ==== Sys2Proof/Machine/State.lean ====
section
/-! DEFINITION. Machine/State.lean: the state of the block (10_state.md), the reasons a step can stop, and reset
(70_reset_and_hazards.md R371, R375). -/

namespace Sys2Proof.Machine

/-- The phase register, the block's program-counter analogue: exactly these 17 values (R31). -/
inductive Phase where
  | idle | discEntry | identTx | identRx | negTx | respRx | awaitPassword | pwTx | data | xferExit
  | cmdPrompt | awaitCmdText | cmdTx | discFinal | retry | error | done
  deriving DecidableEq, Repr

/-- How a cycle ended (R336). -/
inductive CycleResult where
  | ok | cancelled | abandoned (k : ErrorKind)
  deriving DecidableEq, Repr

/-- The kinds of prompt (R14). -/
inductive PromptKind where
  | password | choice | commandText
  deriving DecidableEq, Repr

/-- The session record S, field by field in the order of the table of R33. -/
structure Session where
  mode : Mode
  readFlag : Byte
  isShortCycle : Bool
  restarted : Bool
  password : Option Bytes
  head : Bytes
  baud : Option Byte
  retries : Nat
  lastCause : Option ErrorKind
  schemaDeclared : Bool
  cmdHead : Option CmdHead
  cmdBody : Option Bytes
  pending : Option Bytes
  errKind : Option ErrorKind
  result : Option CycleResult
  deriving DecidableEq, Repr

/-- The events of the trace (R52). -/
inductive Event where
  | tx (bs : Bytes)
  | rx (bs : Bytes)
  | prompt (k : PromptKind)
  | input (bs : Bytes)
  | choice (c : Choice)
  | cancel
  | declareSchema (l : List (Bytes × Kind))
  | publish (key value : Bytes)
  | reportError (k : ErrorKind)
  | cycleDone (r : CycleResult)
  | start (mode : Mode)
  deriving DecidableEq, Repr

/-- What an operation of R121 answers to its caller: its signature's right side. -/
inductive Output where
  | bytes (bs : Bytes)                             -- ENCODE
  | byte (b : Byte)                                -- CHECKSUM
  | frame (f : Frame)                              -- DECODE
  | word (w : StatusWord)                          -- STATUS_PARSE
  | malformedStatus                                -- STATUS_PARSE, APPLY_FRAME
  | fields (l : List (StatusField × Nat))          -- STATUS_DECODE
  | bool (b : Bool)                                -- REG_UPDATE
  | entries (l : List (Bytes × Kind × Bytes))      -- REG_SNAPSHOT
  | line (r : Option (Bytes × Bytes))              -- PARSE_LINE
  | pairs (l : List (Bytes × Bytes))               -- PARSE_BODY
  | committed (reg : List (Bytes × Kind × Bytes))  -- APPLY_FRAME: REG'
  | respClass (c : RespClass)                      -- CLASSIFY
  deriving DecidableEq, Repr

/-- The state of the machine. The first six fields are the spec's. `daemonCycle` is the model's own, the sequencer's knowledge of
whose cycle runs (log 7); `commands`, `draws` and `output` are the model's own too (log 2, 3, 4): the environment's side of
the ports, which is no state of the block (R54). -/
structure State where
  /-- The parameters of R8; no step writes them. -/
  cfg : Params
  /-- The phase register (R31). -/
  phase : Phase
  /-- The session record S; it holds no value in IDLE (R33, R55). -/
  session : Option Session
  /-- The Parameter Registry REG, in schema order (R46). -/
  registry : List Entry
  /-- The cycle counter of the sequencer (R49). -/
  counter : Nat
  /-- The event trace T, oldest event first (R52). -/
  trace : List Event
  /-- The running cycle is a daemon cycle: the sequencer started it by the cadence, and the counter advances after it (R312, R317,
  log 7). -/
  daemonCycle : Bool
  /-- Commands at the block's ports that no step has taken yet, the next one first. -/
  commands : List Command
  /-- How many read results have been drawn from `Config.freeRead`. -/
  draws : Nat
  /-- The answer of the last operation of R121 run by itself. -/
  output : Option Output
  deriving DecidableEq, Repr

/-- A field of the session record that may hold none. -/
inductive StagedField where
  | password | baud | cmdHead | cmdBody | pending | errKind | result
  deriving DecidableEq, Repr

/-- The faults. No step from a coherent state raises one (`State.Coherent` in Safety.lean). -/
inductive Fault where
  /-- Raised by a step rule that reads the session record where it holds no value (R33, U17). Safe: the run stops. -/
  | sessionAbsent
  /-- Raised by a step rule that reads a session field holding none; the rules write each field before they read it
  (R39, R43, R44), so no run of the block reaches it. Safe: the run stops. -/
  | fieldAbsent (f : StagedField)
  deriving DecidableEq, Repr

/-- The refusals: inputs for which the spec has no move (93_implementation_defined.md, `refuse`). -/
inductive Refusal where
  /-- Answered by an arm of exec for an instruction with no meaning yet. Safe. -/
  | notModelled (mnemonic : String)
  /-- Answered by REG_UPDATE and APPLY_FRAME in IDLE: between cycles only the host scheduler may touch the registry, and only by
  starting the next cycle (R85, log 12). Safe: the run stops. -/
  | registryBetweenCycles
  /-- Answered by START outside IDLE: a host fault, refused with nothing recorded (R315, U15, D33). Safe: the run stops. -/
  | startWhileActive
  /-- Answered by INPUT, CHOICE and CANCEL where the phase awaits no such answer (R354, U14, D25). Safe. -/
  | answerNotExpected
  /-- Answered by a wire-tx row where the current phase's step does not send that message (R241). Safe. -/
  | transmissionNotDue
  /-- Answered by a wire-rx row where the current phase's step reads nothing (R241). Safe. -/
  | readNotDue
  /-- Answered by ERROR outside phase ERROR (R241, R333). Safe. -/
  | errorStepNotDue
  /-- Answered by step for a command that is no instruction. Safe. -/
  | undecodable (e : DecodeError)
  /-- Answered by boot for a schema with a duplicate key (R376, U16). Safe. -/
  | duplicateSchemaKey
  deriving DecidableEq, Repr

/-- The schema entry of a status field as 95_test_vectors.md L3 has it: kind `value` for Tariff, `alarm` for the others. -/
def exampleStatusEntry (f : StatusField) : Entry :=
  { key := statusName f, kind := if f = .tariff then .value else .alarm, value := [] }

/-- The example schema of 95_test_vectors.md L3: KEY_A, KEY_B, STAT_, then the 22 status fields, all values empty (log 5). -/
def exampleSchema : List Entry :=
  [{ key := [0x4B, 0x45, 0x59, 0x5F, 0x41], kind := .text, value := [] },
   { key := [0x4B, 0x45, 0x59, 0x5F, 0x42], kind := .voltage, value := [] },
   { key := statKey, kind := .text, value := [] }] ++ statusFields.map exampleStatusEntry

/-- The spec defaults of R8: RETRY_LIMIT 3, NEG_FRAMING Raw, MAX_FRAME_LEN unbounded, STATUS_KEY the field names; the schema of the
spec's vectors; the unattended regime, "absence of mode flags" (R311; log 5), its loop never stopped (log 16). -/
def defaultParams : Params :=
  { retryLimit := 3, schema := exampleSchema, statusKeys := [], maxFrameLen := none, negFraming := .raw, errorTexts := [],
    regime := .daemon, loopStop := none }

/-- The state after reset under the parameters `p` (R55, R371, R375). -/
def State.resetWith (p : Params) : State :=
  { cfg := p, phase := .idle, session := none, registry := p.schema, counter := 0, trace := [], daemonCycle := false,
    commands := [], draws := 0, output := none }

/-- The machine right after reset (R371), under the parameters of `defaultParams`. -/
def State.reset : State := State.resetWith defaultParams

end Sys2Proof.Machine
end

