-- ==== Sys2Proof/Machine/Flags.lean ====
section
/-! DEFINITION. Machine/Flags.lean: the flags of the block (10_state.md R45) and what is computed from them. `checksumValid` is
DECODE's output and the scan flags are transient (Codec.lean); here are the flags a session keeps. -/

namespace Sys2Proof.Machine

/-- The read-flag digit of a mode: `'1'` for Program, `'0'` otherwise (R35, R314). -/
def readFlagOf : Mode → Byte
  | .program => 0x31
  | .limitedRead => 0x30
  | .fullRead => 0x30

/-- A limited cycle is the short one (R314). -/
def shortCycleOf : Mode → Bool
  | .limitedRead => true
  | .fullRead => false
  | .program => false

/-- The mode digit: `'6'` in a short cycle that has not restarted, else the read-flag digit (R111). -/
def modeDigit (S : Session) : Byte := if S.isShortCycle ∧ ¬S.restarted then 0x36 else S.readFlag

/-- The session was opened in explicit command mode (R35, R266). -/
def commandMode (S : Session) : Bool := decide (S.readFlag = 0x31)

/-- The schema is declared at the next accepted data frame (R263). -/
def declaresSchema (S : Session) : Bool := !S.isShortCycle && !S.schemaDeclared

/-- check_length: the read result is longer than `MAX_FRAME_LEN` (R245). -/
def overflows (p : Params) (r : Bytes) : Bool :=
  match p.maxFrameLen with
  | some n => decide (n < r.length)
  | none => false

/-- How an error kind reaches the outside (R330, R331). -/
inductive TakenAs where
  | cause | reported | result
  deriving DecidableEq, Repr

/-- The column "taken as" of R330. -/
def takenAs : ErrorKind → TakenAs
  | .transportTimeout => .cause
  | .protocolNak => .cause
  | .checksumMismatch => .reported
  | .unexpectedHead => .reported
  | .inputCancelled => .result
  | .retryExhausted => .reported
  | .identReplyShort => .cause
  | .repeatedChallenge => .cause
  | .malformedStatus => .reported
  | .frameOverflow => .reported

/-- The spec's code of an error kind (R330). -/
def errorCode : ErrorKind → Nat
  | .transportTimeout => 1
  | .protocolNak => 2
  | .checksumMismatch => 3
  | .unexpectedHead => 4
  | .inputCancelled => 5
  | .retryExhausted => 6
  | .identReplyShort => 7
  | .repeatedChallenge => 8
  | .malformedStatus => 9
  | .frameOverflow => 10

end Sys2Proof.Machine
end

