-- ==== Sys2Proof/Machine/Ops.lean ====
section
/-! DEFINITION. Machine/Ops.lean: the named operations over the state: recording an event, the ports, access to the session
record, raising an error and leaving it again, booting under a parameter record. -/

namespace Sys2Proof.Machine

/-- The outcome of a step. -/
abbrev Result := Host.Outcome State Fault Refusal

/-- One event is appended to the trace (R52). -/
def State.record (s : State) (e : Event) : State := { s with trace := s.trace ++ [e] }

/-- `phase <- P` (R13). -/
def State.moveTo (s : State) (p : Phase) : State := { s with phase := p }

/-- The session record written as a whole; a rule's field writes are one record update, and all writes of a step take effect
together (R13). -/
def State.setSession (s : State) (S : Session) : State := { s with session := some S }

/-- The registry written as a whole: a commit (R76, R218). -/
def State.commit (s : State) (reg : List Entry) : State := { s with registry := reg }

/-- The answer of an operation (R121). -/
def State.answer (s : State) (o : Output) : State := { s with output := some o }

/-- Tx(bs): one event, whole message; it always succeeds (R75, R352). -/
def State.send (s : State) (bs : Bytes) : State := s.record (.tx bs)

/-- Sink.publish(key, value) for every entry of the registry, in schema order (R221, R264). -/
def State.publishAll (s : State) : State :=
  { s with trace := s.trace ++ (regSnapshot s.registry).map fun e => .publish e.1 e.2.2 }

/-- A rule that reads S: it faults where the record holds no value (R33, U17). -/
def onSession (s : State) (rule : Session → Result) : Result :=
  match s.session with
  | some S => rule S
  | none => .fault .sessionAbsent

/-- A rule that reads a field of S that may hold none. -/
def onField {α : Type} (f : StagedField) (x : Option α) (rule : α → Result) : Result :=
  match x with
  | some a => rule a
  | none => .fault (.fieldAbsent f)

/-- TRAP ENTRY, `raise Error(k)` (R16, R333): the kind is recorded, the phase becomes ERROR, and nothing else happens; `S` is the
session record with the step's own writes before the raise. The registry is as it was at the raise: what the same cycle committed
before stays (R334), where R48 asks for the registry as before the cycle's first data frame (log 15). -/
def raiseError (k : ErrorKind) (S : Session) (s : State) : State :=
  (s.setSession { S with errKind := some k }).moveTo .error

/-- The `ERROR` step: the kind goes to the Sink, the cycle is abandoned (R333). -/
def reportStep (s : State) : Result :=
  onSession s fun S =>
    onField .errKind S.errKind fun k =>
      .next (((s.record (.reportError k)).setSession { S with result := some (.abandoned k) }).moveTo .done)

/-- TRAP RETURN and the end of every cycle, the `DONE` step (R276, R337): the result goes to the host, the session record is
discarded, the phase becomes IDLE, and after a daemon cycle the sequencer's counter advances, whatever the result (R317,
log 7). -/
def doneStep (s : State) : Result :=
  onSession s fun S =>
    onField .result S.result fun r =>
      .next { s.record (.cycleDone r) with
        session := none, phase := .idle, daemonCycle := false
        counter := if s.daemonCycle then s.counter + 1 else s.counter }

/-- A rule that writes the registry runs only within a cycle, which owns it (R85, log 12). -/
def duringCycle (s : State) (rule : Result) : Result :=
  match s.phase with
  | .idle => .refused .registryBetweenCycles
  | _ => rule

/-- The session record START writes (R313, R314, R372). -/
def freshSession (m : Mode) : Session :=
  { mode := m, readFlag := readFlagOf m, isShortCycle := shortCycleOf m, restarted := false, password := none, head := [],
    baud := none, retries := 0, lastCause := none, schemaDeclared := false, cmdHead := none, cmdBody := none, pending := none,
    errKind := none, result := none }

/-- Reset under a parameter record: a schema with a duplicate key is a configuration fault and is refused (R375, R376). -/
def boot (p : Params) : Result :=
  if keysUnique p.schema then .next (State.resetWith p) else .refused .duplicateSchemaKey

end Sys2Proof.Machine
end

