-- ==== Sys2Proof/Machine/Session.lean ====
section
/-! DEFINITION. Machine/Session.lean: the step rule of every phase (43_session.md R242 to R276). A rule that reads the Transport
takes the read result as an argument (R278). -/

namespace Sys2Proof.Machine

/-- Step `DISC_ENTRY` (R242). -/
def discEntryStep (s : State) : Result := .next ((s.send disconnectMsg).moveTo .identTx)

/-- Step `IDENT_TX` (R243). -/
def identTxStep (s : State) : Result := .next ((s.send identMsg).moveTo .identRx)

/-- Step `IDENT_RX` with the read result r (R244, R245): byte index 4 is the baud character, and a shorter reply takes the restart
path. -/
def identRxStep (r : Bytes) (s : State) : Result :=
  onSession s fun S =>
    let t := s.record (.rx r)
    if overflows s.cfg r then .next (raiseError .frameOverflow S t)
    else
      match r[4]? with
      | some z => .next ((t.setSession { S with baud := some z }).moveTo .negTx)
      | none =>
        if r = [] then .next ((t.setSession { S with lastCause := some .transportTimeout }).moveTo .retry)
        else .next ((t.setSession { S with lastCause := some .identReplyShort }).moveTo .retry)

/-- Step `NEG_TX` (R246). -/
def negTxStep (s : State) : Result :=
  onSession s fun S =>
    onField .baud S.baud fun z =>
      .next ((s.send (negotiationMsg s.cfg.negFraming z (modeDigit S))).moveTo .respRx)

/-- Branch `PasswordChallenge` (R249, R252, R253); `S` and `t` hold the dispatch's writes so far. -/
def challengeBranch (S : Session) (t : State) : State :=
  if S.mode ≠ .program then raiseError .unexpectedHead S t
  else if S.password = none then ((t.setSession S).record (.prompt .password)).moveTo .awaitPassword
  else if S.retries < t.cfg.retryLimit then
    (t.setSession { S with lastCause := some .repeatedChallenge, retries := S.retries + 1 }).moveTo .pwTx
  else raiseError .retryExhausted { S with lastCause := some .repeatedChallenge } t

/-- Branch `Nak` (R250). -/
def nakBranch (S : Session) (t : State) : State :=
  (t.setSession { S with lastCause := some .protocolNak }).moveTo .retry

/-- Branch `Timeout` (R251). -/
def timeoutBranch (S : Session) (t : State) : State :=
  (t.setSession { S with lastCause := some .transportTimeout }).moveTo .retry

/-- Branch `Ack` (R254). -/
def ackBranch (S : Session) (t : State) : State := (t.setSession S).moveTo .xferExit

/-- Branch `UnexpectedHead` (R256). -/
def unexpectedHeadBranch (S : Session) (t : State) : State := raiseError .unexpectedHead S t

/-- Branch `Data` with a valid checksum (R255). -/
def dataBranch (body : Bytes) (S : Session) (t : State) : State :=
  (t.setSession { S with pending := some body }).moveTo .data

/-- Branch `Data` with an invalid checksum (R257). -/
def mismatchBranch (S : Session) (t : State) : State := raiseError .checksumMismatch S t

/-- Step `RESP_RX`, the response dispatch, with the read result r (R248). -/
def respRxStep (r : Bytes) (s : State) : Result :=
  onSession s fun S =>
    let t := s.record (.rx r)
    if overflows s.cfg r then .next (raiseError .frameOverflow S t)
    else
      let f := decodeFrame r
      let S := { S with head := f.head }
      .next (match classify f with
        | .passwordChallenge => challengeBranch S t
        | .nak => nakBranch S t
        | .timeout => timeoutBranch S t
        | .ack => ackBranch S t
        | .unexpectedHead => unexpectedHeadBranch S t
        | .data => if f.checksumValid then dataBranch f.body S t else mismatchBranch S t)

/-- Step `PW_TX` (R259). -/
def pwTxStep (s : State) : Result :=
  onSession s fun S => onField .password S.password fun pw => .next ((s.send (passwordMsg pw)).moveTo .respRx)

/-- Sink.declareSchema, at most once a cycle and never in a short one (R263). -/
def declareOnce (S : Session) (s : State) : State :=
  if declaresSchema S then s.record (.declareSchema (declarationList s.registry)) else s

/-- Step `DATA` (R262): the frame is applied to a copy; MalformedStatus raises with no Sink event and the registry as it was
(R265, R340(c)), so with the frames that the cycle committed before it (log 15); else the schema is declared where due, the copy
committed, and the whole registry published. -/
def dataStep (s : State) : Result :=
  onSession s fun S =>
    onField .pending S.pending fun body =>
      match applyFrame s.cfg body s.registry with
      | none => .next (raiseError .malformedStatus S s)
      | some reg =>
        .next (((((declareOnce S s).commit reg).publishAll).setSession
          { S with schemaDeclared := S.schemaDeclared || declaresSchema S, pending := none }).moveTo .xferExit)

/-- Step `XFER_EXIT` (R266). -/
def xferExitStep (s : State) : Result :=
  onSession s fun S =>
    if commandMode S then .next ((s.record (.prompt .choice)).moveTo .cmdPrompt)
    else .next ((s.setSession { S with result := some .ok }).moveTo .done)

/-- Step `CMD_TX` (R270). -/
def cmdTxStep (s : State) : Result :=
  onSession s fun S =>
    onField .cmdHead S.cmdHead fun h =>
      onField .cmdBody S.cmdBody fun t =>
        .next (((s.send (commandMsg h t)).setSession { S with cmdHead := none, cmdBody := none }).moveTo .respRx)

/-- Step `DISC_FINAL` (R272). -/
def discFinalStep (s : State) : Result := .next ((s.send disconnectMsg).moveTo .done)

/-- Step `RETRY`, the restart path (R274). -/
def retryStep (s : State) : Result :=
  onSession s fun S =>
    if S.retries < s.cfg.retryLimit then
      .next ((s.setSession { S with retries := S.retries + 1, restarted := true }).moveTo .discEntry)
    else .next (raiseError .retryExhausted S s)

/-- The phases whose step takes one read result: `Rx()` (R244, R248, R342(a)). -/
def Phase.reads : Phase → Bool
  | .identRx => true
  | .respRx => true
  | _ => false

/-- The one step of the current phase, with the read result r where the phase reads (R241). IDLE and the three suspended phases
have no internal step: the block waits, and nothing changes (R351, log 7). -/
def internalStep (r : Bytes) (s : State) : Result :=
  match s.phase with
  | .idle => .next s
  | .discEntry => discEntryStep s
  | .identTx => identTxStep s
  | .identRx => identRxStep r s
  | .negTx => negTxStep s
  | .respRx => respRxStep r s
  | .awaitPassword => .next s
  | .pwTx => pwTxStep s
  | .data => dataStep s
  | .xferExit => xferExitStep s
  | .cmdPrompt => .next s
  | .awaitCmdText => .next s
  | .cmdTx => cmdTxStep s
  | .discFinal => discFinalStep s
  | .retry => retryStep s
  | .error => reportStep s
  | .done => doneStep s

end Sys2Proof.Machine
end

