-- ==== Sys2Proof/Machine/Control.lean ====
section
/-! DEFINITION. Machine/Control.lean: STEP, ERROR, the host command START with the cycle sequencer's choice of mode
(44_host_cycle.md), and the operator's answers INPUT, CHOICE and CANCEL. -/

namespace Sys2Proof.Machine

/-- STEP (R241). Where the phase reads, the read result is the next free draw (R278, log 3). -/
def execStep (s : State) : Result :=
  if s.phase.reads then internalStep (Config.freeRead s.draws) { s with draws := s.draws + 1 }
  else internalStep [] s

/-- ERROR, the `ERROR` step (R333). -/
def execError (s : State) : Result :=
  match s.phase with
  | .error => reportStep s
  | _ => .refused .errorStepNotDue

/-- START(mode) (R313), accepted only in IDLE (R315). REG and the counter are not touched. The cycle is a daemon cycle only where the
sequencer has claimed it (`claimCycle`); a START given by a command is a single-shot one, in any mode (R311(b), R356, log 7). -/
def execStart (m : Mode) (s : State) : Result :=
  match s.phase with
  | .idle => .next (((s.record (.start m)).setSession (freshSession m)).moveTo .discEntry)
  | _ => .refused .startWhileActive

/-- INPUT: the password (R258) or the command text (R269); refused where the phase awaits neither (R354). -/
def execInput (bs : Bytes) (s : State) : Result :=
  match s.phase with
  | .awaitPassword =>
    onSession s fun S => .next (((s.record (.input bs)).setSession { S with password := some bs }).moveTo .pwTx)
  | .awaitCmdText =>
    onSession s fun S => .next (((s.record (.input bs)).setSession { S with cmdBody := some bs }).moveTo .cmdTx)
  | _ => .refused .answerNotExpected

/-- The choice of a command: the head is staged and the command text asked for (R268). -/
def chooseCommand (c : Choice) (h : CmdHead) (s : State) : Result :=
  onSession s fun S =>
    .next ((((s.record (.choice c)).setSession { S with cmdHead := some h }).record (.prompt .commandText)).moveTo .awaitCmdText)

/-- The session ends at the operator's word with the result `r`, through the closing disconnect frame (R258, R268, R269). -/
def endSession (e : Event) (r : CycleResult) (s : State) : Result :=
  onSession s fun S => .next (((s.record e).setSession { S with result := some r }).moveTo .discFinal)

/-- CHOICE(c) at the choice prompt (R268); refused elsewhere (R354). -/
def execChoice (c : Choice) (s : State) : Result :=
  match s.phase with
  | .cmdPrompt =>
    match c with
    | .read => chooseCommand .read .r1 s
    | .write => chooseCommand .write .w1 s
    | .exit => endSession (.choice .exit) .ok s
  | _ => .refused .answerNotExpected

/-- CANCEL at any prompt (R258, R268, R269, R357); refused elsewhere (R354). -/
def execCancel (s : State) : Result :=
  match s.phase with
  | .awaitPassword => endSession .cancel .cancelled s
  | .cmdPrompt => endSession .cancel .cancelled s
  | .awaitCmdText => endSession .cancel .cancelled s
  | _ => .refused .answerNotExpected

/-- `CADENCE_PERIOD` (R8). -/
abbrev cadencePeriod : Nat := 5

/-- The mode of the daemon cycle with that counter: every fifth requests the full set, the others the limited set (R312). -/
def daemonMode (counter : Nat) : Mode := if counter % cadencePeriod = 0 then .fullRead else .limitedRead

/-- The host has stopped the daemon loop: the counter has come to where it does (R319, log 16). -/
def loopStopped (s : State) : Bool :=
  match s.cfg.loopStop with
  | some n => decide (n ≤ s.counter)
  | none => false

/-- The sequencer starts the next daemon cycle: in IDLE under the unattended regime (R310, R311(a), R316, log 7), until the host stops
the loop. A stop takes effect between cycles only: in a running cycle the sequencer is not due (R319, R343). -/
abbrev sequencerDue (s : State) : Prop := s.phase = .idle ∧ s.cfg.regime = .daemon ∧ loopStopped s = false

/-- The instruction the block runs when no command is pending: the sequencer's START in the mode of the cadence where it is due
(R312), else the phase's own step (R241), which in IDLE waits. -/
def ownInstr (s : State) : Instr :=
  if sequencerDue s then .start (daemonMode s.counter) else .step

/-- The sequencer notes that the cycle it starts is a daemon cycle (R317, log 7). -/
def claimCycle (s : State) : State :=
  if sequencerDue s then { s with daemonCycle := true } else s

end Sys2Proof.Machine
end

