-- ==== Sys2Proof/Machine/Pure.lean ====
section
/-! DEFINITION. Machine/Pure.lean: the operations that answer a caller: the codec (ENCODE, CHECKSUM, DECODE, CLASSIFY), the status
decoder (STATUS_PARSE, STATUS_DECODE), the registry operations and the line parsers. Run by themselves they answer in `output`;
only REG_UPDATE and APPLY_FRAME write anything else, the registry, and these run only within a cycle (R85, R140, R180, R210;
log 4, 12). -/

namespace Sys2Proof.Machine

/-- ENCODE (R141). -/
def execEncode (head body : Bytes) (s : State) : Result := .next (s.answer (.bytes (encodeFrame head body)))

/-- CHECKSUM (R145). -/
def execChecksum (bs : Bytes) (s : State) : Result := .next (s.answer (.byte (checksum bs)))

/-- DECODE (R150, R151). -/
def execDecode (bs : Bytes) (s : State) : Result := .next (s.answer (.frame (decodeFrame bs)))

/-- STATUS_PARSE (R181): its answer is the word or MalformedStatus; the step that calls it raises the error (R265, R332; log 10). -/
def execStatusParse (text : Bytes) (s : State) : Result :=
  match statusParse text with
  | some w => .next (s.answer (.word w))
  | none => .next (s.answer .malformedStatus)

/-- STATUS_DECODE (R184). -/
def execStatusDecode (w : StatusWord) (s : State) : Result := .next (s.answer (.fields (statusDecode w)))

/-- REG_UPDATE (R211), within a cycle (R85). -/
def execRegUpdate (key value : Bytes) (s : State) : Result :=
  duringCycle s
    (let r := regUpdate key value s.registry
    .next ((s.commit r.1).answer (.bool r.2)))

/-- REG_SNAPSHOT (R214). -/
def execRegSnapshot (s : State) : Result := .next (s.answer (.entries (regSnapshot s.registry)))

/-- PARSE_LINE (R216), total (R332). -/
def execParseLine (line : Bytes) (s : State) : Result := .next (s.answer (.line (parseLineAnswer line)))

/-- PARSE_BODY (R217). -/
def execParseBody (body : Bytes) (s : State) : Result := .next (s.answer (.pairs (parseBody body)))

/-- APPLY_FRAME (R218): the commit is all-or-nothing; its answer is REG' or MalformedStatus (log 10). Within a cycle (R85). -/
def execApplyFrame (body : Bytes) (s : State) : Result :=
  duringCycle s
    (match applyFrame s.cfg body s.registry with
    | some reg => .next ((s.commit reg).answer (.committed (regSnapshot reg)))
    | none => .next (s.answer .malformedStatus))

/-- CLASSIFY (R247). -/
def execClassify (f : Frame) (s : State) : Result := .next (s.answer (.respClass (classify f)))

end Sys2Proof.Machine
end

