-- ==== Sys2Proof/Machine/Receive.lean ====
section
/-! DEFINITION. Machine/Receive.lean: the received rows. Each is one read result r that the Transport delivers: the current
phase's step runs with `Rx() = r` (R278, R352). Where the block awaits an identification reply, r is used raw whatever its class
(R244); where it awaits a response, r goes through the dispatch, which takes the branch of the row's class (R248). -/

namespace Sys2Proof.Machine

/-- The read result r arrives: the step of IDENT_RX or of RESP_RX with that result; no other phase reads (R241). -/
def receive (r : Bytes) (s : State) : Result :=
  match s.phase with
  | .identRx => identRxStep r s
  | .respRx => respRxStep r s
  | _ => .refused .readNotDue

/-- RX_IDENT_REPLY (R107, R244). -/
def execRxIdentReply (r : Bytes) (s : State) : Result := receive r s

/-- RX_P0 (R248; its branches R249, R252, R253). -/
def execRxP0 (r : Bytes) (s : State) : Result := receive r s

/-- RX_NAK (R250). -/
def execRxNak (r : Bytes) (s : State) : Result := receive r s

/-- RX_TIMEOUT (R251; at IDENT_RX R244). -/
def execRxTimeout (r : Bytes) (s : State) : Result := receive r s

/-- RX_ACK (R254). -/
def execRxAck (r : Bytes) (s : State) : Result := receive r s

/-- RX_UNEXPECTED_HEAD (R256). -/
def execRxUnexpectedHead (r : Bytes) (s : State) : Result := receive r s

/-- RX_DATA_VALID (R255). -/
def execRxDataValid (r : Bytes) (s : State) : Result := receive r s

/-- RX_DATA_INVALID (R257). -/
def execRxDataInvalid (r : Bytes) (s : State) : Result := receive r s

end Sys2Proof.Machine
end

