-- ==== Sys2Proof/Machine/Transmit.lean ====
section
/-! DEFINITION. Machine/Transmit.lean: the rows DISCONNECT, IDENT, OPTSEL, OPTSEL_ENCODED, PASSWORD, READ and WRITE. A message of the
block is sent by exactly one phase's step (two for DISCONNECT), and only with the operands the session record gives it; in
every other state the phase has a different step or none (R241), and the row is refused (log 8). -/

namespace Sys2Proof.Machine

/-- The row runs `rule`, the current phase's step, where its operands are those the session record gives the message. -/
def whenDue (due : Session → Prop) [DecidablePred due] (rule : State → Result) (s : State) : Result :=
  onSession s fun S => if due S then rule s else .refused .transmissionNotDue

/-- DISCONNECT (R112): sent at the start of every handshake (R242) and at the end of a command session (R272). -/
def execDisconnect (s : State) : Result :=
  match s.phase with
  | .discEntry => discEntryStep s
  | .discFinal => discFinalStep s
  | _ => .refused .transmissionNotDue

/-- IDENT (R109, R243). -/
def execIdent (s : State) : Result :=
  match s.phase with
  | .identTx => identTxStep s
  | _ => .refused .transmissionNotDue

/-- OPTSEL(z, y) with `NEG_FRAMING = Raw` (R110, R246). -/
def execOptsel (z y : Byte) (s : State) : Result :=
  match s.phase with
  | .negTx => whenDue (fun S => s.cfg.negFraming = .raw ∧ S.baud = some z ∧ modeDigit S = y) negTxStep s
  | _ => .refused .transmissionNotDue

/-- OPTSEL_ENCODED(z, y) with `NEG_FRAMING = Encoded` (R110, R246). -/
def execOptselEncoded (z y : Byte) (s : State) : Result :=
  match s.phase with
  | .negTx => whenDue (fun S => s.cfg.negFraming = .encoded ∧ S.baud = some z ∧ modeDigit S = y) negTxStep s
  | _ => .refused .transmissionNotDue

/-- PASSWORD(pw) (R113, R259). -/
def execPassword (pw : Bytes) (s : State) : Result :=
  match s.phase with
  | .pwTx => whenDue (fun S => S.password = some pw) pwTxStep s
  | _ => .refused .transmissionNotDue

/-- READ(t) (R114, R270). -/
def execRead (t : Bytes) (s : State) : Result :=
  match s.phase with
  | .cmdTx => whenDue (fun S => S.cmdHead = some .r1 ∧ S.cmdBody = some t) cmdTxStep s
  | _ => .refused .transmissionNotDue

/-- WRITE(t) (R114, R270). -/
def execWrite (t : Bytes) (s : State) : Result :=
  match s.phase with
  | .cmdTx => whenDue (fun S => S.cmdHead = some .w1 ∧ S.cmdBody = some t) cmdTxStep s
  | _ => .refused .transmissionNotDue

end Sys2Proof.Machine
end

