-- ==== Sys2Proof/Machine/Dispatch.lean ====
section
/-! DEFINITION. Machine/Dispatch.lean: one arm per instruction, each a direct call of its meaning. -/

namespace Sys2Proof.Machine

def exec (i : Instr) (s : State) : Host.Outcome State Fault Refusal :=
  match i with
  | .disconnect => Sys2Proof.Machine.execDisconnect s
  | .ident => Sys2Proof.Machine.execIdent s
  | .optsel z y => Sys2Proof.Machine.execOptsel z y s
  | .optselEncoded z y => Sys2Proof.Machine.execOptselEncoded z y s
  | .password pw => Sys2Proof.Machine.execPassword pw s
  | .read t => Sys2Proof.Machine.execRead t s
  | .write t => Sys2Proof.Machine.execWrite t s
  | .rxIdentReply r => Sys2Proof.Machine.execRxIdentReply r s
  | .rxP0 r => Sys2Proof.Machine.execRxP0 r s
  | .rxNak r => Sys2Proof.Machine.execRxNak r s
  | .rxTimeout r => Sys2Proof.Machine.execRxTimeout r s
  | .rxAck r => Sys2Proof.Machine.execRxAck r s
  | .rxUnexpectedHead r => Sys2Proof.Machine.execRxUnexpectedHead r s
  | .rxDataValid r => Sys2Proof.Machine.execRxDataValid r s
  | .rxDataInvalid r => Sys2Proof.Machine.execRxDataInvalid r s
  | .encode head body => Sys2Proof.Machine.execEncode head body s
  | .checksum bs => Sys2Proof.Machine.execChecksum bs s
  | .decode bs => Sys2Proof.Machine.execDecode bs s
  | .statusParse text => Sys2Proof.Machine.execStatusParse text s
  | .statusDecode w => Sys2Proof.Machine.execStatusDecode w s
  | .regUpdate key value => Sys2Proof.Machine.execRegUpdate key value s
  | .regSnapshot => Sys2Proof.Machine.execRegSnapshot s
  | .parseLine line => Sys2Proof.Machine.execParseLine line s
  | .parseBody body => Sys2Proof.Machine.execParseBody body s
  | .applyFrame body => Sys2Proof.Machine.execApplyFrame body s
  | .classify f => Sys2Proof.Machine.execClassify f s
  | .step => Sys2Proof.Machine.execStep s
  | .start mode => Sys2Proof.Machine.execStart mode s
  | .input bs => Sys2Proof.Machine.execInput bs s
  | .choice c => Sys2Proof.Machine.execChoice c s
  | .cancel => Sys2Proof.Machine.execCancel s
  | .error => Sys2Proof.Machine.execError s

end Sys2Proof.Machine
end

