-- ==== Sys2Proof/Machine/Fetch.lean ====
section
/-! DEFINITION. Machine/Fetch.lean: taking the next command from the block's ports, and placing an instruction so that it is the
next one run. -/

namespace Sys2Proof.Machine

/-- The instruction of a pending command. A read result is an identification reply where the block awaits one (R107, R244). -/
def fetch (s : State) (c : Command) : Except DecodeError Instr := decodeCommand (decide (s.phase = .identRx)) c

/-- A session in mode m at phase p, with the session fields `set` writes: what an instruction of the wire surface needs in order
to be the current phase's step (log 6). -/
def atPhase (p : Phase) (m : Mode) (set : Session → Session) (s : State) : State :=
  { s with phase := p, session := some (set (freshSession m)) }

/-- The mode in which the first option select of a cycle has that mode digit (R111, R345). -/
def modeOfDigit (y : Byte) : Mode := if y = 0x36 then .limitedRead else if y = 0x31 then .program else .fullRead

/-- The state in which the instruction is the one the block runs: the phase that sends the message, with the operands in the
session record, or a phase that reads. A registry writer runs within a cycle (R85), every other operation
where the block stands. -/
def readyFor (i : Instr) (s : State) : State :=
  match i with
  | .disconnect => atPhase .discEntry .fullRead id s
  | .ident => atPhase .identTx .fullRead id s
  | .optsel z y =>
    let s := atPhase .negTx (modeOfDigit y) (fun S => { S with baud := some z }) s
    { s with cfg := { s.cfg with negFraming := .raw } }
  | .optselEncoded z y =>
    let s := atPhase .negTx (modeOfDigit y) (fun S => { S with baud := some z }) s
    { s with cfg := { s.cfg with negFraming := .encoded } }
  | .password pw => atPhase .pwTx .program (fun S => { S with password := some pw }) s
  | .read t => atPhase .cmdTx .program (fun S => { S with cmdHead := some .r1, cmdBody := some t }) s
  | .write t => atPhase .cmdTx .program (fun S => { S with cmdHead := some .w1, cmdBody := some t }) s
  | .rxIdentReply _ => atPhase .identRx .fullRead id s
  | .rxP0 _ => atPhase .respRx .program id s
  | .rxNak _ => atPhase .respRx .fullRead id s
  | .rxTimeout _ => atPhase .respRx .fullRead id s
  | .rxAck _ => atPhase .respRx .fullRead id s
  | .rxUnexpectedHead _ => atPhase .respRx .fullRead id s
  | .rxDataValid _ => atPhase .respRx .fullRead id s
  | .rxDataInvalid _ => atPhase .respRx .fullRead id s
  | .encode _ _ => s
  | .checksum _ => s
  | .decode _ => s
  | .statusParse _ => s
  | .statusDecode _ => s
  | .regUpdate _ _ => atPhase .respRx .fullRead id s
  | .regSnapshot => s
  | .parseLine _ => s
  | .parseBody _ => s
  | .applyFrame _ => atPhase .respRx .fullRead id s
  | .classify _ => s
  | .step => s
  | .start _ => s
  | .input _ => s
  | .choice _ => s
  | .cancel => s
  | .error => s

/-- The instruction placed as the next command, in the state in which it is the one the block runs. -/
def placeNext (i : Instr) (s : State) : State :=
  let s := readyFor i s
  { s with commands := encode i :: s.commands }

end Sys2Proof.Machine
end

