-- ==== Sys2Proof/Machine/Step.lean ====
section
/-! DEFINITION. Machine/Step.lean: one step of the machine, and the state in which a given word is the next instruction. -/

namespace Sys2Proof.Machine

/-- One step: the next pending command is taken and its instruction run; with none pending, the block runs its own, the
sequencer's START being that of a daemon cycle. A command that is no instruction is refused. -/
def step (s : State) : Host.Outcome State Fault Refusal :=
  match s.commands with
  | [] => exec (ownInstr s) (claimCycle s)
  | c :: cs =>
    match fetch s c with
    | .ok i => exec i { s with commands := cs }
    | .error e => .refused (.undecodable e)

/-- The state in which the next step runs the instruction of that table word (log 6). The block selects what it runs by its phase
and session record, so these are set with the command; a word that is no instruction changes nothing. -/
def State.withFetchWord (s : State) (nbits w : Nat) : State :=
  match decodeTableWord nbits w with
  | some i => placeNext i s
  | none => s

end Sys2Proof.Machine
end

