-- ==== Sys2Proof/Machine/Ports.lean ====
section
/-! DEFINITION. Machine/Ports.lean: what the agents outside see of the trace (20_memory.md R70, 60_exceptions.md R352, R353): the
bytes on the transmit stream and the calls at the Sink, with the text of a reported error. -/

namespace Sys2Proof.Machine

/-- `ERROR_TEXT(kind)` (R8, R333): the parameter's text, else the free one (log 9). -/
def errorText (p : Params) (k : ErrorKind) : Bytes := (p.errorTexts.lookup k).getD (Config.freeErrorText k)

/-- A call at the Sink port (R353). -/
inductive SinkCall where
  | declareSchema (l : List (Bytes × Kind))
  | publish (key value : Bytes)
  | reportError (message : Bytes)
  deriving DecidableEq, Repr

/-- The Sink call an event stands for, if it is one. -/
def sinkCall (p : Params) : Event → Option SinkCall
  | .declareSchema l => some (.declareSchema l)
  | .publish k v => some (.publish k v)
  | .reportError k => some (.reportError (errorText p k))
  | _ => none

/-- The Sink channel: its calls, in order (R70). -/
def sinkCalls (p : Params) (T : List Event) : List SinkCall := T.filterMap (sinkCall p)

/-- The bytes of a transmission. -/
def sentBytes : Event → Bytes
  | .tx bs => bs
  | _ => []

/-- The Transport transmit stream: the bytes sent, in order (R70, R71). -/
def transmitStream (T : List Event) : Bytes := T.flatMap sentBytes

end Sys2Proof.Machine
end

