-- ==== Sys2Proof/Safety.lean ====
section
/-! DEFINITION. Safety.lean: what the claims speak of: the coherent states (an invariant that rules out the states no run of the
block reaches), the bracketing of cycles in the trace, runs with given read results, and the state up to what no rule reads. -/

namespace Sys2Proof.Terms

/-- The operations that only answer (R121): neither registry writer, step, command nor answer. -/
def onlyAnswers : Instr → Bool
  | .encode _ _ | .checksum _ | .decode _ | .statusParse _ | .statusDecode _ | .regSnapshot => true
  | .parseLine _ | .parseBody _ | .classify _ => true
  | .disconnect | .ident | .optsel _ _ | .optselEncoded _ _ | .password _ | .read _ | .write _ => false
  | .rxIdentReply _ | .rxP0 _ | .rxNak _ | .rxTimeout _ | .rxAck _ | .rxUnexpectedHead _ => false
  | .rxDataValid _ | .rxDataInvalid _ => false
  | .regUpdate _ _ | .applyFrame _ => false
  | .step | .start _ | .input _ | .choice _ | .cancel | .error => false

/-- The operations that answer and may write the registry. -/
def writesRegistry : Instr → Bool
  | .regUpdate _ _ | .applyFrame _ => true
  | .encode _ _ | .checksum _ | .decode _ | .statusParse _ | .statusDecode _ | .regSnapshot => false
  | .parseLine _ | .parseBody _ | .classify _ => false
  | .disconnect | .ident | .optsel _ _ | .optselEncoded _ _ | .password _ | .read _ | .write _ => false
  | .rxIdentReply _ | .rxP0 _ | .rxNak _ | .rxTimeout _ | .rxAck _ | .rxUnexpectedHead _ => false
  | .rxDataValid _ | .rxDataInvalid _ => false
  | .step | .start _ | .input _ | .choice _ | .cancel | .error => false

end Sys2Proof.Terms

namespace Sys2Proof.Machine

/-- What the session record holds in each phase, so that the phase's step finds every field it reads (R33, R39, R43, R44), and the
phases only a Program session enters (R345). -/
def stagedAt (ph : Phase) (S : Session) : Prop :=
  match ph with
  | .negTx => S.baud ≠ none
  | .awaitPassword => S.mode = .program
  | .pwTx => S.mode = .program ∧ S.password ≠ none
  | .data => S.pending ≠ none
  | .cmdPrompt => S.mode = .program
  | .awaitCmdText => S.mode = .program ∧ S.cmdHead ≠ none
  | .cmdTx => S.mode = .program ∧ S.cmdHead ≠ none ∧ S.cmdBody ≠ none
  | .discFinal => S.mode = .program ∧ S.result ≠ none
  | .error => S.errKind ≠ none
  | .done => S.result ≠ none
  | .idle => True
  | .discEntry => True
  | .identTx => True
  | .identRx => True
  | .respRx => True
  | .xferExit => True
  | .retry => True

/-- A session record that a run of the block can hold in phase `ph`. -/
structure SessionCoherent (p : Params) (ph : Phase) (S : Session) : Prop where
  /-- The read flag is the mode's (R314). -/
  readFlag : S.readFlag = readFlagOf S.mode
  /-- The short-cycle flag is the mode's (R314). -/
  shortCycle : S.isShortCycle = shortCycleOf S.mode
  /-- The retry budget is never exceeded (R40). -/
  budget : S.retries ≤ p.retryLimit
  /-- A restart has charged the budget (R274). -/
  restarted : S.restarted = true → 0 < S.retries
  /-- Only a Program session holds a password (R249, R345). -/
  passwordMode : S.password ≠ none → S.mode = .program
  /-- A short cycle never declares the schema (R36, R263). -/
  shortUndeclared : S.isShortCycle = true → S.schemaDeclared = false
  /-- The last cause is a cause (R331). -/
  causeKind : ∀ k, S.lastCause = some k → takenAs k = .cause
  /-- The recorded error is of a reported kind (R330). -/
  errorReported : ∀ k, S.errKind = some k → takenAs k = .reported
  /-- An error is recorded only on the way out through ERROR and DONE (R333, R338). -/
  errorLate : S.errKind ≠ none → ph = .error ∨ ph = .done
  /-- A cycle is abandoned with the recorded error (R333, R336). -/
  abandonedWith : ∀ k, S.result = some (.abandoned k) → S.errKind = some k
  /-- The result is decided only at the end (R44). -/
  resultLate : S.result ≠ none → ph = .discFinal ∨ ph = .done
  /-- The phase's step finds what it reads. -/
  staged : stagedAt ph S

/-- A state that a run of the block can reach: the record S holds a value exactly outside IDLE (R33), the registry has the keys,
order and kinds of SCHEMA (R46), whose keys are unique (R376); a daemon cycle runs only outside IDLE, only under the unattended
regime, and only in the mode of the cadence, so never in Program mode (R312, R318). -/
structure State.Coherent (s : State) : Prop where
  idleIff : s.phase = .idle ↔ s.session = none
  layout : regLayout s.registry = regLayout s.cfg.schema
  unique : keysUnique s.cfg.schema
  record : ∀ S, s.session = some S → SessionCoherent s.cfg s.phase S
  daemonOutsideIdle : s.daemonCycle = true → s.phase ≠ .idle
  daemonRegime : s.daemonCycle = true → s.cfg.regime = .daemon
  cadence : s.daemonCycle = true → ∀ S, s.session = some S → S.mode = daemonMode s.counter

/-- One event read against "a cycle is open": every event but Start stands inside a cycle, Start opens one, CycleDone closes it;
`none` is a breach (R81). -/
def bracketEvent : Option Bool → Event → Option Bool
  | some false, .start _ => some true
  | some true, .start _ => none
  | some true, .cycleDone _ => some false
  | some true, _ => some true
  | _, _ => none

/-- Whether the trace leaves a cycle open; `none` if two cycles overlap in it or an event stands outside every cycle (R81). -/
def openCycle (T : List Event) : Option Bool := T.foldl bracketEvent (some false)

/-- How many cycles the trace completes. -/
def cyclesDone (T : List Event) : Nat :=
  T.countP fun e => match e with
    | .cycleDone _ => true
    | _ => false

/-- One session step with the read result r where the phase reads: the received row of r, else STEP (R241, R278). -/
def stepWithRead (r : Bytes) (s : State) : Result :=
  if s.phase.reads then exec (decodeRx (decide (s.phase = .identRx)) r) s else exec .step s

/-- As many session steps as there are read results; a result given to a step that does not read is not used. -/
def runReads : List Bytes → State → Result
  | [], s => .next s
  | r :: rs, s =>
    match stepWithRead r s with
    | .next t => runReads rs t
    | .fault e => .fault e
    | .refused e => .refused e

/-- The state up to the diagnostic field `lastCause` (R41). -/
def eraseCause (s : State) : State := { s with session := s.session.map fun S => { S with lastCause := none } }

/-- The state up to `lastCause` and the trace so far, which no rule reads (R41, R52). -/
def unobserved (s : State) : State := { eraseCause s with trace := [] }

/-- Two runs that began at t and t' end alike: the same later events, and the same state up to what no rule reads; or both stop for
the same reason. -/
def SameFromHere (t t' : State) : Result → Result → Prop
  | .next u, .next u' =>
    ∃ es, u.trace = t.trace ++ es ∧ u'.trace = t'.trace ++ es ∧ unobserved u = unobserved u'
  | .fault e, .fault e' => e = e'
  | .refused e, .refused e' => e = e'
  | _, _ => False

end Sys2Proof.Machine
end

