-- ==== Sys2Proof/Certificates/Slice0/Obligations.lean ====
section
/-! DEFINITION. Certificates/Slice0/Obligations.lean: the statements for the provers, with the terms they are written in. The terms say
what the rules say in a form of their own (closed forms, tables, read-ahead recursions), not by the model's definitions. -/

namespace Sys2Proof.Terms

open Sys2Proof.Machine

/-- The eight received rows of one read result. -/
def rxRows (r : Bytes) : List Instr :=
  [.rxIdentReply r, .rxP0 r, .rxNak r, .rxTimeout r, .rxAck r, .rxUnexpectedHead r, .rxDataValid r, .rxDataInvalid r]

/-- The read result is no longer than `MAX_FRAME_LEN` (R245). -/
def Fits (p : Params) (r : Bytes) : Prop := ∀ n, p.maxFrameLen = some n → r.length ≤ n

/-- The sum of every byte after the first SOH or STX (R146). -/
def sumAfterStart (bs : Bytes) : Nat :=
  ((bs.dropWhile fun b => decide (b ≠ 0x01 ∧ b ≠ 0x02)).tail.map BitVec.toNat).sum

/-- A check byte: the sum of the given bytes modulo 128. -/
def bcc (bs : Bytes) : Byte := BitVec.ofNat 8 ((bs.map BitVec.toNat).sum % 128)

/-- The bytes DECODE captures into the head, read ahead: `inHead` says whether the head region is open (R151, R153). -/
def headBytes : Bool → Bytes → Bytes
  | _, [] => []
  | inHead, b :: bs =>
    if b = 0x01 then headBytes true bs
    else if b = 0x02 ∨ b = 0x03 then headBytes false bs
    else if inHead then b :: headBytes true bs else headBytes false bs

/-- The bytes DECODE captures into the body, read ahead (R151, R153). -/
def bodyBytes : Bool → Bytes → Bytes
  | _, [] => []
  | inBody, b :: bs =>
    if b = 0x02 then bodyBytes true bs
    else if b = 0x01 ∨ b = 0x03 then bodyBytes false bs
    else if inBody then b :: bodyBytes true bs else bodyBytes false bs

/-- No byte is SOH, STX or ETX (R159). -/
def MarkerFree (bs : Bytes) : Prop := ∀ b ∈ bs, b ≠ 0x01 ∧ b ≠ 0x02 ∧ b ≠ 0x03

/-- The hexadecimal digits, both cases (R181). -/
def hexTable : List (Byte × Nat) :=
  [(0x30, 0), (0x31, 1), (0x32, 2), (0x33, 3), (0x34, 4), (0x35, 5), (0x36, 6), (0x37, 7), (0x38, 8), (0x39, 9),
   (0x41, 10), (0x42, 11), (0x43, 12), (0x44, 13), (0x45, 14), (0x46, 15),
   (0x61, 10), (0x62, 11), (0x63, 12), (0x64, 13), (0x65, 14), (0x66, 15)]

/-- Not empty, and every byte a hexadecimal digit (R181). -/
def HexText (text : Bytes) : Prop := text ≠ [] ∧ ∀ c ∈ text, c ∈ hexTable.map Prod.fst

/-- The positional value of hexadecimal text, most significant digit first (R72). -/
def positional : Bytes → Nat
  | [] => 0
  | c :: cs => (hexTable.lookup c).getD 0 * 16 ^ cs.length + positional cs

/-- The text `KEY(value)` (R108). -/
def lineText (key value : Bytes) : Bytes := key ++ [0x28] ++ value ++ [0x29]

/-- The bytes of lines joined by LF (R108). -/
def joinLines (ls : List Bytes) : Bytes := [(0x0A : Byte)].intercalate ls

/-- Some `STAT_` line of the body has a value that is no hexadecimal text (R181, R218). -/
def StatMalformed (body : Bytes) : Prop :=
  ∃ v, (([0x53, 0x54, 0x41, 0x54, 0x5F] : Bytes), v) ∈ parseBody body ∧ ¬HexText v

/-- The message rows. -/
def sends : Instr → Bool
  | .disconnect | .ident | .optsel _ _ | .optselEncoded _ _ | .password _ | .read _ | .write _ => true
  | .rxIdentReply _ | .rxP0 _ | .rxNak _ | .rxTimeout _ | .rxAck _ | .rxUnexpectedHead _ => false
  | .rxDataValid _ | .rxDataInvalid _ => false
  | .encode _ _ | .checksum _ | .decode _ | .statusParse _ | .statusDecode _ | .regUpdate _ _ | .regSnapshot => false
  | .parseLine _ | .parseBody _ | .applyFrame _ | .classify _ => false
  | .step | .start _ | .input _ | .choice _ | .cancel | .error => false

/-- The phases with no internal step (R241). -/
def waits : Phase → Bool
  | .idle | .awaitPassword | .cmdPrompt | .awaitCmdText => true
  | .discEntry | .identTx | .identRx | .negTx | .respRx | .pwTx | .data | .xferExit | .cmdTx | .discFinal => false
  | .retry | .error | .done => false

/-- How many schema declarations are among the events. -/
def declarations (es : List Event) : Nat :=
  es.countP fun e => match e with
    | .declareSchema _ => true
    | _ => false

/-- The kinds a phase's step can raise: the table of R332. -/
def canRaise : Phase → List ErrorKind
  | .identRx => [.frameOverflow]
  | .respRx => [.frameOverflow, .unexpectedHead, .checksumMismatch, .retryExhausted]
  | .data => [.malformedStatus]
  | .retry => [.retryExhausted]
  | .idle | .discEntry | .identTx | .negTx | .awaitPassword | .pwTx | .xferExit => []
  | .cmdPrompt | .awaitCmdText | .cmdTx | .discFinal | .error | .done => []

end Sys2Proof.Terms

open Sys2Proof Sys2Proof.Machine Sys2Proof.Terms

/-! ## The machine and its encodings -/

/-- One step takes the next pending command (log 2), decodes it and runs the instruction; with no command pending the sequencer starts the
cycle of the cadence, a daemon cycle, in IDLE under the unattended regime (R310, R312; log 7) until the host stops the loop, and the
block runs its own step otherwise (R241). The host stops the loop only between cycles, in IDLE, where the block then waits, and a
running cycle goes on whatever the host has decided (R319; that the stop is a counter value is the model's choice: log 16). -/
def Obligations.StepRunsDecodedInstruction : Prop :=
  ∀ s : State,
    (∀ c cs i, s.commands = c :: cs → decodeCommand (decide (s.phase = .identRx)) c = .ok i →
      Machine.step s = exec i { s with commands := cs }) ∧
    (∀ c cs e, s.commands = c :: cs → decodeCommand (decide (s.phase = .identRx)) c = .error e →
      Machine.step s = .refused (.undecodable e)) ∧
    (s.commands = [] → s.phase = .idle → s.cfg.regime = .daemon → (∀ n, s.cfg.loopStop = some n → s.counter < n) →
      Machine.step s = exec (.start (if s.counter % 5 = 0 then .fullRead else .limitedRead)) { s with daemonCycle := true }) ∧
    (s.commands = [] → s.phase ≠ .idle ∨ s.cfg.regime ≠ .daemon → Machine.step s = exec .step s) ∧
    (s.commands = [] → s.phase = .idle → (∃ n, s.cfg.loopStop = some n ∧ n ≤ s.counter) → Machine.step s = .next s)

/-- Decoding the encoding of a well-formed instruction gives it back, every operand with it; a received row is decoded where the block
awaits what the row is. -/
def Obligations.DecodeOfEncodeIsIdentity : Prop :=
  ∀ (i : Instr) (b : Bool), i.wf = true → (∀ r, encode i = .rx r → b = i.identifying) →
    decodeCommand b (encode i) = .ok i

/-- Bytes decode to a message only if they are that message's encoding: no two byte sequences are one message. -/
def Obligations.DecodedTransmissionIsItsEncoding : Prop :=
  ∀ (bs : Bytes) (i : Instr), decodeTx bs = .ok i → i.wf = true ∧ sends i = true ∧ encode i = .tx bs

/-- Every byte sequence is a read result of exactly one row (R105, R106): the decoder gives a well-formed row holding it, and it is the only
well-formed row of those bytes in that place. That a reply of fewer than five bytes is named by its class as a response is the
model's reading (log 8): the table has no row for a short reply. -/
def Obligations.EveryReadResultIsOneRow : Prop :=
  ∀ (r : Bytes) (b : Bool), (decodeRx b r).wf = true ∧ decodeRx b r ∈ rxRows r ∧
    ∀ i ∈ rxRows r, i.wf = true → i.identifying = (b && decide (5 ≤ r.length)) → i = decodeRx b r

/-- Messages and read results written out from the spec's encodings decode to their rows (R109 to R114, L1.9, L2.1, L2.3). -/
def Obligations.WrittenOutWordsDecode : Prop :=
  decodeTx [0x01, 0x42, 0x30, 0x03, 0x75] = .ok .disconnect ∧
  decodeTx [0x2F, 0x3F, 0x21, 0x0D, 0x0A] = .ok .ident ∧
  decodeTx [0x06, 0x30, 0x35, 0x36, 0x0D, 0x0A] = .ok (.optsel 0x35 0x36) ∧
  decodeTx [0x02, 0x06, 0x30, 0x35, 0x30, 0x0D, 0x0A, 0x03, 0x35] = .ok (.optselEncoded 0x35 0x30) ∧
  decodeTx [0x01, 0x50, 0x31, 0x02, 0x28, 0x37, 0x37, 0x37, 0x37, 0x37, 0x37, 0x29, 0x03, 0x21] =
    .ok (.password [0x37, 0x37, 0x37, 0x37, 0x37, 0x37]) ∧
  decodeTx [0x01, 0x52, 0x31, 0x03, 0x06] = .ok (.read []) ∧
  decodeTx [0x01, 0x57, 0x31, 0x03, 0x0B] = .ok (.write []) ∧
  decodeRx false [0x15] = .rxNak [0x15] ∧ decodeRx false [] = .rxTimeout [] ∧ decodeRx false [0x06] = .rxAck [0x06] ∧
  decodeRx false [0x01, 0x50, 0x30, 0x03, 0x03] = .rxP0 [0x01, 0x50, 0x30, 0x03, 0x03]

/-! ## The frame codec -/

/-- CHECKSUM answers the closed form of R146, and nothing else changes; the answer is below 128, and a further byte counts with its value
modulo 128 once a start has been seen (R147). The answer stands in
`output` (log 4). -/
def Obligations.ChecksumIsSumAfterFirstStart : Prop :=
  ∀ (bs : Bytes) (b : Byte) (s : State),
    exec (.checksum bs) s = .next { s with output := some (.byte (BitVec.ofNat 8 (sumAfterStart bs % 128))) } ∧
    (checksum bs).toNat < 128 ∧ (checksum bs).getLsbD 7 = false ∧
    checksum (bs ++ [b]) =
      if ∃ c ∈ bs, c = 0x01 ∨ c = 0x02 then BitVec.ofNat 8 (((checksum bs).toNat + b.toNat % 128) % 128) else 0

/-- ENCODE answers the four frame forms of R102, the check byte the sum of every byte after the first marker, and nothing else
changes. The answer stands in
`output` (log 4). -/
def Obligations.EncodeGivesFourFrameForms : Prop :=
  ∀ (h b : Bytes) (s : State), ∃ e : Bytes, exec (.encode h b) s = .next { s with output := some (.bytes e) } ∧
    (h ≠ [] → b ≠ [] → e = [0x01] ++ h ++ [0x02] ++ b ++ [0x03, bcc (h ++ [0x02] ++ b ++ [0x03])]) ∧
    (h ≠ [] → b = [] → e = [0x01] ++ h ++ [0x03, bcc (h ++ [0x03])]) ∧
    (h = [] → b ≠ [] → e = [0x02] ++ b ++ [0x03, bcc (b ++ [0x03])]) ∧
    (h = [] → b = [] → e = [0x03, 0x00])

/-- The length of an encoded frame (R103), and the check byte ENCODE appends is the function DECODE checks (R144). -/
def Obligations.EncodedFrameLengthAndCheckByte : Prop :=
  ∀ h b : Bytes,
    (encodeFrame h b).length =
      2 + (if 0 < h.length then 1 + h.length else 0) + (if 0 < b.length then 1 + b.length else 0) ∧
    (encodeFrame h b).getLast? = some (checksum (encodeFrame h b).dropLast)

/-- DECODE of an ENCODE gives head and body back with a valid checksum, for all fields free of markers, empty ones too (R159). -/
def Obligations.DecodeUndoesEncode : Prop :=
  ∀ h b : Bytes, MarkerFree h → MarkerFree b →
    decodeFrame (encodeFrame h b) = { head := h, body := b, checksumValid := true }

/-- DECODE of two or more bytes: the regions of every byte but the last, and the last compared with the checksum of the others
(R151, R152, R153, R154, R156); nothing else changes. The answer stands in
`output` (log 4). -/
def Obligations.DecodeReadsRegionsAndClaim : Prop :=
  ∀ (bs : Bytes) (c : Byte) (s : State), bs ≠ [] →
    exec (.decode (bs ++ [c])) s = .next { s with output := some (.frame
      { head := headBytes false bs, body := bodyBytes false bs,
        checksumValid := decide (c = BitVec.ofNat 8 (sumAfterStart bs % 128)) }) }

/-- An input of at most one byte is its own body and is valid (R150, R161). The answer stands in
`output` (log 4). -/
def Obligations.ShortInputIsItsOwnBody : Prop :=
  ∀ (bs : Bytes) (s : State), bs.length ≤ 1 →
    exec (.decode bs) s = .next { s with output := some (.frame { head := [], body := bs, checksumValid := true }) }

/-- Any other value in the place of a valid frame's last byte makes the checksum invalid and changes no other field (R160). -/
def Obligations.LastByteCorruptionIsSeen : Prop :=
  ∀ (bs : Bytes) (c d : Byte), bs ≠ [] → (decodeFrame (bs ++ [c])).checksumValid = true → d ≠ c →
    decodeFrame (bs ++ [d]) = { decodeFrame (bs ++ [c]) with checksumValid := false }

/-- CLASSIFY takes the first condition that holds, in the order of R247; nothing else changes. The answer stands in
`output` (log 4). -/
def Obligations.ClassifyTakesFirstMatch : Prop :=
  ∀ (f : Frame) (s : State), ∃ c : RespClass, exec (.classify f) s = .next { s with output := some (.respClass c) } ∧
    (c = .passwordChallenge ↔ f.head = [0x50, 0x30]) ∧
    (c = .nak ↔ f.head ≠ [0x50, 0x30] ∧ f.body = [0x15]) ∧
    (c = .timeout ↔ f.head ≠ [0x50, 0x30] ∧ f.body = []) ∧
    (c = .ack ↔ f.head ≠ [0x50, 0x30] ∧ f.body = [0x06]) ∧
    (c = .unexpectedHead ↔ f.head ∉ [[], [0x42, 0x30], [0x50, 0x30]] ∧ f.body ∉ [[], [0x15], [0x06]]) ∧
    (c = .data ↔ f.head ∈ [[], [0x42, 0x30]] ∧ f.body ∉ [[], [0x15], [0x06]])

/-! ## The status decoder -/

/-- STATUS_PARSE answers the positional value modulo 2^32 of hexadecimal text and MalformedStatus for every other text (R181, R182); run by
itself it raises nothing (log 10), and nothing else changes. The answer stands in
`output` (log 4). -/
def Obligations.StatusParseReadsHexText : Prop :=
  ∀ (text : Bytes) (s : State),
    (HexText text → exec (.statusParse text) s =
      .next { s with output := some (.word (BitVec.ofNat 32 (positional text % 2 ^ 32))) }) ∧
    (¬HexText text → exec (.statusParse text) s = .next { s with output := some .malformedStatus })

/-- STATUS_DECODE answers the 22 fields in the order of R183, each with its formula: a number of three bits for the tariff, the two
polarities of bits 7 and 8, single bits, and voltage-is-normal from the mask 0x0C00; nothing else changes. The answer stands in
`output` (log 4). -/
def Obligations.StatusDecodeFollowsBitMap : Prop :=
  ∀ (w : StatusWord) (s : State), ∃ l, exec (.statusDecode w) s = .next { s with output := some (.fields l) } ∧ l =
    [(.tariff, w.toNat % 8), (.batteryDischarged, w.toNat / 2 ^ 3 % 2), (.forwardDirection, 1 - w.toNat / 2 ^ 7 % 2),
     (.backwardDirection, w.toNat / 2 ^ 7 % 2), (.capacitiveLoad, 1 - w.toNat / 2 ^ 8 % 2),
     (.inductiveLoad, w.toNat / 2 ^ 8 % 2), (.timeCorrectionExhausted, w.toNat / 2 ^ 9 % 2),
     (.voltageIsUpper, w.toNat / 2 ^ 10 % 2), (.voltageIsLower, w.toNat / 2 ^ 11 % 2), (.clockError, w.toNat / 2 ^ 12 % 2),
     (.summerTime, w.toNat / 2 ^ 14 % 2), (.crcError, w.toNat / 2 ^ 16 % 2), (.coverOpened, w.toNat / 2 ^ 17 % 2),
     (.batteryExpired, w.toNat / 2 ^ 19 % 2), (.crcMemoryError, w.toNat / 2 ^ 20 % 2),
     (.crcMetrologicalError, w.toNat / 2 ^ 21 % 2), (.scheduledTariff1, w.toNat / 2 ^ 24 % 2),
     (.scheduledTariff2, w.toNat / 2 ^ 25 % 2), (.scheduledTariff3, w.toNat / 2 ^ 26 % 2),
     (.scheduledTariff4, w.toNat / 2 ^ 27 % 2), (.schedulerError, w.toNat / 2 ^ 28 % 2),
     (.voltageIsNormal, if w.toNat / 2 ^ 10 % 2 = 0 ∧ w.toNat / 2 ^ 11 % 2 = 0 then 1 else 0)]

/-- The eleven bits no field reads never affect the output (R189); each field of the two pairs is the complement of its partner (R186);
voltage-is-normal is 1 iff neither voltage alarm is set, and else 0 (R187). -/
def Obligations.StatusFieldsIgnoreUnusedBitsAndPair : Prop :=
  ∀ w : StatusWord,
    statusDecode w = statusDecode (w &&& 0x1F3B5F8F) ∧
    statusValue w .forwardDirection + statusValue w .backwardDirection = 1 ∧
    statusValue w .capacitiveLoad + statusValue w .inductiveLoad = 1 ∧
    (statusValue w .voltageIsNormal = 1 ↔ statusValue w .voltageIsUpper = 0 ∧ statusValue w .voltageIsLower = 0) ∧
    (statusValue w .voltageIsNormal = 0 ∨ statusValue w .voltageIsNormal = 1)

/-! ## The registry and the data-frame body -/

/-- REG_UPDATE with a key of the registry puts the value in place and answers true; every other key keeps its value, and the keys, their
order and their kinds stay (R211, R213, R46). With an unknown key it changes no entry, answers false and raises nothing (R212). As a
command it runs in every phase of a cycle, which is the model's choice, and is refused between cycles (R85; log 12). The answer
stands in `output` (log 4). -/
def Obligations.RegUpdateWritesOneValueOrNone : Prop :=
  ∀ (k v : Bytes) (s : State),
    (s.phase ≠ .idle → k ∈ s.registry.map Entry.key →
      ∃ reg, exec (.regUpdate k v) s = .next { s with registry := reg, output := some (.bool true) } ∧
        regRead k reg = some v ∧ (∀ k', k' ≠ k → regRead k' reg = regRead k' s.registry) ∧
        regLayout reg = regLayout s.registry) ∧
    (s.phase ≠ .idle → k ∉ s.registry.map Entry.key →
      exec (.regUpdate k v) s = .next { s with output := some (.bool false) }) ∧
    (s.phase = .idle → exec (.regUpdate k v) s = .refused .registryBetweenCycles)

/-- REG_SNAPSHOT answers every entry in schema order and changes nothing else (R214). The answer stands in
`output` (log 4). -/
def Obligations.SnapshotListsEveryEntryInOrder : Prop :=
  ∀ s : State, exec .regSnapshot s =
    .next { s with output := some (.entries (s.registry.map fun e => (e.key, e.kind, e.value))) }

/-- PARSE_LINE answers (key, value) exactly for `KEY(value)` with a key that is not empty and holds no `(`, one trailing CR dropped,
on every line that holds no LF (R216); on a line that holds one it completes too, with a free answer (log 17: R216 states none), as
PARSE_LINE is total (R332); nothing else changes. The answer stands in `output` (log 4). -/
def Obligations.ParseLineMatchesKeyValue : Prop :=
  ∀ (line : Bytes) (s : State), ∃ r, exec (.parseLine line) s = .next { s with output := some (.line r) } ∧
    (0x0A ∉ line → ∀ k v, r = some (k, v) ↔
      k ≠ [] ∧ 0x28 ∉ k ∧ (line = lineText k v ∨ line = lineText k v ++ [0x0D]))

/-- PARSE_BODY of lines joined by LF answers the pairs of the lines that match, in order (R217); every body is lines so joined, and
nothing else changes. The answer stands in
`output` (log 4). -/
def Obligations.ParseBodyTakesLinesInOrder : Prop :=
  (∀ (ls : List Bytes) (s : State), ls ≠ [] → (∀ l ∈ ls, 0x0A ∉ l) →
    exec (.parseBody (joinLines ls)) s = .next { s with output := some (.pairs (ls.filterMap parseLine)) }) ∧
  (∀ body : Bytes, ∃ ls : List Bytes, ls ≠ [] ∧ (∀ l ∈ ls, 0x0A ∉ l) ∧ body = joinLines ls)

/-- APPLY_FRAME is all or nothing (R218): a malformed `STAT_` value anywhere in the body leaves the registry exactly as it was; else it
is committed with the same keys, order and kinds, and keys the frame does not write keep their values; the registry committed is the
one DATA commits. That it answers MalformedStatus by itself, with the phase kept, is the model's reading (log 10); that it runs in
every phase of a cycle is the model's choice, and it is refused between cycles (R85; log 12). The answer stands in `output`
(log 4). -/
def Obligations.ApplyFrameIsAllOrNothing : Prop :=
  ∀ (body : Bytes) (s : State),
    (s.phase = .idle → exec (.applyFrame body) s = .refused .registryBetweenCycles) ∧
    (s.phase ≠ .idle → StatMalformed body →
      exec (.applyFrame body) s = .next { s with output := some .malformedStatus }) ∧
    (s.phase ≠ .idle → ¬StatMalformed body → ∃ reg, exec (.applyFrame body) s =
        .next { s with registry := reg, output := some (.committed (reg.map fun e => (e.key, e.kind, e.value))) } ∧
      applyFrame s.cfg body s.registry = some reg ∧ regLayout reg = regLayout s.registry ∧
      ∀ k, k ∉ (parseBody body).map Prod.fst →
        (statKey ∈ (parseBody body).map Prod.fst → ∀ f, statusKey s.cfg f ≠ k) → regRead k reg = regRead k s.registry)

/-- Pairs apply in body order (R219): every pair of a frame, `STAT_` itself too (R218), leaves its value in the registry where no later
pair has its key and, where it is a `STAT_` line or one follows, its key is no status field's; so a later line overwrites an
earlier one of its key and a decoded status field. Run by itself within a cycle (log 12). -/
def Obligations.LastPairOfFrameKeepsItsValue : Prop :=
  ∀ (body k v : Bytes) (ps qs : List (Bytes × Bytes)) (s : State),
    s.phase ≠ .idle → parseBody body = ps ++ (k, v) :: qs → ¬StatMalformed body → k ∈ s.registry.map Entry.key →
    k ∉ qs.map Prod.fst → (k = statKey ∨ statKey ∈ qs.map Prod.fst → ∀ f, statusKey s.cfg f ≠ k) →
    ∃ t, exec (.applyFrame body) s = .next t ∧ regRead k t.registry = some v

/-- A `STAT_` line that no later `STAT_` line follows writes every status field the registry has, as one decimal digit, whether or not
the registry has `STAT_` (R190, R218, R220), and a field keeps it where no later line has the field's key (R219). Run by itself
within a cycle (log 12). -/
def Obligations.StatLineWritesEveryStatusField : Prop :=
  ∀ (body v : Bytes) (ps qs : List (Bytes × Bytes)) (s : State) (f : StatusField),
    s.phase ≠ .idle → parseBody body = ps ++ (statKey, v) :: qs → ¬StatMalformed body → statKey ∉ qs.map Prod.fst →
    statusKey s.cfg f ∉ qs.map Prod.fst → (∀ g, statusKey s.cfg g = statusKey s.cfg f → g = f) →
    statusKey s.cfg f ∈ s.registry.map Entry.key →
    ∃ t, exec (.applyFrame body) s = .next t ∧
      regRead (statusKey s.cfg f) t.registry =
        some [BitVec.ofNat 8 (0x30 + statusValue (BitVec.ofNat 32 (positional v)) f)]

/-! ## The session, phase by phase -/

/-- DISC_ENTRY sends the disconnect frame `01 42 30 03 75` and goes to IDENT_TX (R112, R242), IDENT_TX sends `"/?!\r\n"` raw and goes to
IDENT_RX (R109, R243), and DISC_FINAL sends the disconnect frame and goes to DONE (R272). -/
def Obligations.FixedMessagesAreSentInTheirPhases : Prop :=
  ∀ s : State,
    (s.phase = .discEntry → ∀ i, i = .step ∨ i = .disconnect → exec i s =
      .next { s with phase := .identTx, trace := s.trace ++ [.tx [0x01, 0x42, 0x30, 0x03, 0x75]] }) ∧
    (s.phase = .identTx → ∀ i, i = .step ∨ i = .ident → exec i s =
      .next { s with phase := .identRx, trace := s.trace ++ [.tx [0x2F, 0x3F, 0x21, 0x0D, 0x0A]] }) ∧
    (s.phase = .discFinal → ∀ i, i = .step ∨ i = .disconnect → exec i s =
      .next { s with phase := .done, trace := s.trace ++ [.tx [0x01, 0x42, 0x30, 0x03, 0x75]] })

/-- At IDENT_RX every read result is taken raw, whatever its row: one longer than MAX_FRAME_LEN raises FrameOverflow; else byte index 4 is
the baud character, and an empty or short reply takes the restart path (R244). -/
def Obligations.IdentReplyGivesBaudOrRestarts : Prop :=
  ∀ (s : State) (S : Session) (r : Bytes) (i : Instr), i ∈ rxRows r → s.phase = .identRx → s.session = some S →
    (¬Fits s.cfg r → exec i s = .next { s with
      phase := .error, session := some { S with errKind := some .frameOverflow }, trace := s.trace ++ [.rx r] }) ∧
    (∀ z, Fits s.cfg r → r[4]? = some z → exec i s = .next { s with
      phase := .negTx, session := some { S with baud := some z }, trace := s.trace ++ [.rx r] }) ∧
    (Fits s.cfg r → r = [] → exec i s = .next { s with
      phase := .retry, session := some { S with lastCause := some .transportTimeout }, trace := s.trace ++ [.rx r] }) ∧
    (Fits s.cfg r → 0 < r.length → r.length < 5 → exec i s = .next { s with
      phase := .retry, session := some { S with lastCause := some .identReplyShort }, trace := s.trace ++ [.rx r] })

/-- A read result longer than MAX_FRAME_LEN raises FrameOverflow before any other use of it, whatever its row, at both phases that read
(R245, R340(a)). -/
def Obligations.OverlongReadRaisesFrameOverflow : Prop :=
  ∀ (s : State) (S : Session) (r : Bytes) (i : Instr) (n : Nat), i ∈ rxRows r → s.phase = .identRx ∨ s.phase = .respRx →
    s.session = some S → s.cfg.maxFrameLen = some n → n < r.length →
    exec i s = .next { s with
      phase := .error, session := some { S with errKind := some .frameOverflow }, trace := s.trace ++ [.rx r] }

/-- NEG_TX sends the option-select message with the baud character echoed and the mode digit `'6'` for a short cycle that has not
restarted, else the read-flag digit (R110, R111, R246). -/
def Obligations.OptionSelectEchoesBaudAndModeDigit : Prop :=
  ∀ (s : State) (S : Session) (z y : Byte), s.phase = .negTx → s.session = some S → S.baud = some z →
    y = (if S.isShortCycle = true ∧ S.restarted = false then 0x36 else S.readFlag) →
    (s.cfg.negFraming = .raw → ∀ i, i = .step ∨ i = .optsel z y → exec i s = .next { s with
      phase := .respRx, trace := s.trace ++ [.tx [0x06, 0x30, z, y, 0x0D, 0x0A]] }) ∧
    (s.cfg.negFraming = .encoded → ∀ i, i = .step ∨ i = .optselEncoded z y → exec i s = .next { s with
      phase := .respRx,
      trace := s.trace ++ [.tx [0x02, 0x06, 0x30, z, y, 0x0D, 0x0A, 0x03, bcc [0x06, 0x30, z, y, 0x0D, 0x0A, 0x03]]] })

/-- A NAK, a timeout and an ACK are taken by their body alone, whatever the checksum and whatever other head they carry: NAK and timeout
take the restart path (R250, R251), an ACK goes to the exit decision with nothing processed (R254). -/
def Obligations.NakTimeoutAndAckAreTakenByBody : Prop :=
  ∀ (s : State) (S : Session) (r h b : Bytes) (v : Bool), s.phase = .respRx → s.session = some S → Fits s.cfg r →
    decodeFrame r = { head := h, body := b, checksumValid := v } → h ≠ [0x50, 0x30] →
    (b = [0x15] → exec (.rxNak r) s = .next { s with
      phase := .retry, session := some { S with head := h, lastCause := some .protocolNak }, trace := s.trace ++ [.rx r] }) ∧
    (b = [] → exec (.rxTimeout r) s = .next { s with
      phase := .retry, session := some { S with head := h, lastCause := some .transportTimeout }, trace := s.trace ++ [.rx r] }) ∧
    (b = [0x06] → exec (.rxAck r) s = .next { s with
      phase := .xferExit, session := some { S with head := h }, trace := s.trace ++ [.rx r] })

/-- A P0 challenge: UnexpectedHead in a read session (R249); the password prompt in a Program session with no password (R253); with one,
the budget is charged and the P1 frame goes again, or RetryExhausted is raised (R252). The checksum is not looked at. -/
def Obligations.PasswordChallengeIsHonouredInProgramOnly : Prop :=
  ∀ (s : State) (S : Session) (r b : Bytes) (v : Bool), s.phase = .respRx → s.session = some S → Fits s.cfg r →
    decodeFrame r = { head := [0x50, 0x30], body := b, checksumValid := v } →
    (S.mode ≠ .program → exec (.rxP0 r) s = .next { s with
      phase := .error, session := some { S with head := [0x50, 0x30], errKind := some .unexpectedHead },
      trace := s.trace ++ [.rx r] }) ∧
    (S.mode = .program → S.password = none → exec (.rxP0 r) s = .next { s with
      phase := .awaitPassword, session := some { S with head := [0x50, 0x30] },
      trace := s.trace ++ [.rx r, .prompt .password] }) ∧
    (S.mode = .program → S.password ≠ none → S.retries < s.cfg.retryLimit → exec (.rxP0 r) s = .next { s with
      phase := .pwTx,
      session := some { S with head := [0x50, 0x30], lastCause := some .repeatedChallenge, retries := S.retries + 1 },
      trace := s.trace ++ [.rx r] }) ∧
    (S.mode = .program → S.password ≠ none → s.cfg.retryLimit ≤ S.retries → exec (.rxP0 r) s = .next { s with
      phase := .error,
      session := some { S with head := [0x50, 0x30], lastCause := some .repeatedChallenge, errKind := some .retryExhausted },
      trace := s.trace ++ [.rx r] })

/-- A response with no control body and a head other than P0: with an unknown head it raises UnexpectedHead, valid checksum or not (R256);
as data with a valid checksum it is staged for DATA (R255); as data with an invalid one it raises ChecksumMismatch, with no registry
entry changed and nothing published (R257). -/
def Obligations.DataResponseIsStagedOrRaises : Prop :=
  ∀ (s : State) (S : Session) (r h b : Bytes) (v : Bool), s.phase = .respRx → s.session = some S → Fits s.cfg r →
    decodeFrame r = { head := h, body := b, checksumValid := v } → h ≠ [0x50, 0x30] → b ∉ [[], [0x15], [0x06]] →
    (h ∉ [[], [0x42, 0x30]] → exec (.rxUnexpectedHead r) s = .next { s with
      phase := .error, session := some { S with head := h, errKind := some .unexpectedHead }, trace := s.trace ++ [.rx r] }) ∧
    (h ∈ [[], [0x42, 0x30]] → v = true → exec (.rxDataValid r) s = .next { s with
      phase := .data, session := some { S with head := h, pending := some b }, trace := s.trace ++ [.rx r] }) ∧
    (h ∈ [[], [0x42, 0x30]] → v = false → exec (.rxDataInvalid r) s = .next { s with
      phase := .error, session := some { S with head := h, errKind := some .checksumMismatch }, trace := s.trace ++ [.rx r] })

/-- STEP in a phase that reads takes the next free read result and is the received row of it (R278; log 3: the value stays free). -/
def Obligations.StepTakesFreeReadResult : Prop :=
  ∀ s : State, s.phase = .identRx ∨ s.phase = .respRx →
    exec .step s =
      exec (decodeRx (decide (s.phase = .identRx)) (Config.freeRead s.draws)) { s with draws := s.draws + 1 }

/-- PW_TX sends the P1 frame with the cached password between parentheses (R113, R259). -/
def Obligations.PasswordFrameCarriesThePassword : Prop :=
  ∀ (s : State) (S : Session) (pw : Bytes) (i : Instr), i = .step ∨ i = .password pw → s.phase = .pwTx →
    s.session = some S → S.password = some pw →
    exec i s = .next { s with
      phase := .respRx,
      trace := s.trace ++ [.tx ([0x01, 0x50, 0x31, 0x02, 0x28] ++ pw ++
        [0x29, 0x03, bcc ([0x50, 0x31, 0x02, 0x28] ++ pw ++ [0x29, 0x03])])] }

/-- DATA applies the staged frame: MalformedStatus is raised with the registry as it was and no Sink event (R265); else the schema is
declared where it is due (R263), the registry committed and every entry published in schema order (R262, R264, R221). -/
def Obligations.DataStepDeclaresCommitsPublishes : Prop :=
  ∀ (s : State) (S : Session) (body : Bytes), s.phase = .data → s.session = some S → S.pending = some body →
    (StatMalformed body → exec .step s = .next { s with
      phase := .error, session := some { S with errKind := some .malformedStatus } }) ∧
    (¬StatMalformed body → ∃ reg, applyFrame s.cfg body s.registry = some reg ∧ exec .step s = .next { s with
      phase := .xferExit, registry := reg,
      session := some { S with pending := none, schemaDeclared := S.schemaDeclared || !S.isShortCycle },
      trace := s.trace ++
        (if S.isShortCycle = false ∧ S.schemaDeclared = false then
          [.declareSchema (s.registry.map fun e => (e.key, e.kind))] else []) ++
        reg.map fun e => .publish e.key e.value })

/-- XFER_EXIT ends a read cycle with Ok and no disconnect frame, and asks for a choice where the read flag is the programming digit
(R266). -/
def Obligations.ExitDecisionFollowsReadFlag : Prop :=
  ∀ (s : State) (S : Session), s.phase = .xferExit → s.session = some S →
    (S.readFlag ≠ 0x31 → exec .step s = .next { s with phase := .done, session := some { S with result := some .ok } }) ∧
    (S.readFlag = 0x31 → exec .step s = .next { s with phase := .cmdPrompt, trace := s.trace ++ [.prompt .choice] })

/-- CMD_TX sends the staged command in an R1 or W1 frame and clears the staging fields (R114, R270); an empty text gives a frame with
no STX. -/
def Obligations.CommandFrameCarriesTheText : Prop :=
  ∀ (s : State) (S : Session) (t m : Bytes) (h : CmdHead) (i : Instr), s.phase = .cmdTx → s.session = some S →
    S.cmdHead = some h → S.cmdBody = some t → i = .step ∨ i = (match h with | .r1 => .read t | .w1 => .write t) →
    m = (match h with | .r1 => ([0x52, 0x31] : Bytes) | .w1 => [0x57, 0x31]) ++ (if t = [] then [] else [0x02] ++ t) ++ [0x03] →
    exec i s = .next { s with
      phase := .respRx, session := some { S with cmdHead := none, cmdBody := none },
      trace := s.trace ++ [.tx ([0x01] ++ m ++ [bcc m])] }

/-- RETRY restarts the handshake while the budget lasts, keeping everything else of the session (R274), and raises RetryExhausted when it
is spent. -/
def Obligations.RestartIsBoundedByRetryLimit : Prop :=
  ∀ (s : State) (S : Session), s.phase = .retry → s.session = some S →
    (S.retries < s.cfg.retryLimit → exec .step s = .next { s with
      phase := .discEntry, session := some { S with retries := S.retries + 1, restarted := true } }) ∧
    (s.cfg.retryLimit ≤ S.retries → exec .step s = .next { s with
      phase := .error, session := some { S with errKind := some .retryExhausted } })

/-- The ERROR step reports the kind to the Sink and abandons the cycle (R333); the Sink is called once, with ERROR_TEXT of the kind (the
parameter's text, else a free text: log 9), and no byte is sent (R335). -/
def Obligations.ErrorStepReportsAndAbandons : Prop :=
  ∀ (s : State) (S : Session) (k : ErrorKind) (i : Instr), i = .step ∨ i = .error → s.phase = .error →
    s.session = some S → S.errKind = some k →
    exec i s = .next { s with
      phase := .done, session := some { S with result := some (.abandoned k) }, trace := s.trace ++ [.reportError k] } ∧
    sinkCalls s.cfg (s.trace ++ [.reportError k]) = sinkCalls s.cfg s.trace ++
      [.reportError ((s.cfg.errorTexts.lookup k).getD (Config.freeErrorText k))] ∧
    transmitStream (s.trace ++ [.reportError k]) = transmitStream s.trace

/-- DONE reports the result to the host, discards the session record, password and all, and goes to IDLE (R276); after a daemon cycle the
counter advances, whatever the result, and after any other it stays (R317; in the DONE step itself, a daemon cycle being one the
sequencer started: log 7). -/
def Obligations.DoneDiscardsSessionAndCountsCycle : Prop :=
  ∀ (s : State) (S : Session) (r : CycleResult), s.phase = .done → s.session = some S → S.result = some r →
    exec .step s = .next { s with
      phase := .idle, session := none, trace := s.trace ++ [.cycleDone r],
      counter := (if s.daemonCycle then s.counter + 1 else s.counter), daemonCycle := false }

/-- START in IDLE writes the whole session record from the mode and touches neither registry nor counter (R313, R314, R372). -/
def Obligations.StartOpensCycleFromIdle : Prop :=
  ∀ (s : State) (m : Mode), s.phase = .idle →
    exec (.start m) s = .next { s with
      phase := .discEntry, trace := s.trace ++ [.start m],
      session := some
        { mode := m, readFlag := if m = .program then 0x31 else 0x30, isShortCycle := decide (m = .limitedRead),
          restarted := false, password := none, head := [], baud := none, retries := 0, lastCause := none,
          schemaDeclared := false, cmdHead := none, cmdBody := none, pending := none, errKind := none, result := none } }

/-- The password prompt is resumed by a string, any byte sequence and the empty one too, or by Cancel, which ends the session through the
closing disconnect with the result Cancelled (R258). -/
def Obligations.PasswordPromptIsResumed : Prop :=
  ∀ (s : State) (S : Session) (bs : Bytes), s.session = some S → s.phase = .awaitPassword →
    exec (.input bs) s = .next { s with
      phase := .pwTx, session := some { S with password := some bs }, trace := s.trace ++ [.input bs] } ∧
    exec .cancel s = .next { s with
      phase := .discFinal, session := some { S with result := some .cancelled }, trace := s.trace ++ [.cancel] }

/-- The choice prompt is resumed by Read and Write, which stage the head and ask for the text, by Exit, which goes to the closing
disconnect with Ok, and by Cancel, which goes there with Cancelled (R268). -/
def Obligations.ChoicePromptIsResumed : Prop :=
  ∀ (s : State) (S : Session), s.session = some S → s.phase = .cmdPrompt →
    exec (.choice .read) s = .next { s with
      phase := .awaitCmdText, session := some { S with cmdHead := some .r1 },
      trace := s.trace ++ [.choice .read, .prompt .commandText] } ∧
    exec (.choice .write) s = .next { s with
      phase := .awaitCmdText, session := some { S with cmdHead := some .w1 },
      trace := s.trace ++ [.choice .write, .prompt .commandText] } ∧
    exec (.choice .exit) s = .next { s with
      phase := .discFinal, session := some { S with result := some .ok }, trace := s.trace ++ [.choice .exit] } ∧
    exec .cancel s = .next { s with
      phase := .discFinal, session := some { S with result := some .cancelled }, trace := s.trace ++ [.cancel] }

/-- The command-text prompt is resumed by a string, or by Cancel (R269). -/
def Obligations.CommandTextPromptIsResumed : Prop :=
  ∀ (s : State) (S : Session) (bs : Bytes), s.session = some S → s.phase = .awaitCmdText →
    exec (.input bs) s = .next { s with
      phase := .cmdTx, session := some { S with cmdBody := some bs }, trace := s.trace ++ [.input bs] } ∧
    exec .cancel s = .next { s with
      phase := .discFinal, session := some { S with result := some .cancelled }, trace := s.trace ++ [.cancel] }

/-- START is accepted only in IDLE (R315); the answers are Input at the password and command-text prompts, Choice at the choice prompt
and Cancel at any, and one that does not fit is refused (R354): no state follows, nothing is recorded. -/
def Obligations.UnfitCommandsAreRefused : Prop :=
  ∀ (s : State) (m : Mode) (bs : Bytes) (c : Choice),
    (exec (.start m) s = .refused .startWhileActive ↔ s.phase ≠ .idle) ∧
    (exec (.input bs) s = .refused .answerNotExpected ↔ s.phase ∉ [.awaitPassword, .awaitCmdText]) ∧
    (exec (.choice c) s = .refused .answerNotExpected ↔ s.phase ≠ .cmdPrompt) ∧
    (exec .cancel s = .refused .answerNotExpected ↔ s.phase ∉ [.awaitPassword, .cmdPrompt, .awaitCmdText])

/-! ## The whole machine -/

/-- Reset under any schema with unique keys leaves phase IDLE, no session record, the registry as the schema gives it, counter 0 and an
empty trace (R55). -/
def Obligations.ResetLeavesTheSpecValues : Prop :=
  ∀ p : Params, (p.schema.map Entry.key).Nodup → ∃ t, boot p = .next t ∧ t.cfg = p ∧
    t.phase = .idle ∧ t.session = none ∧ t.registry = p.schema ∧ t.counter = 0 ∧ t.trace = []

/-- The state after reset is coherent, under the default parameters (log 5) and under any schema with unique keys; a schema with a
duplicate key is refused (R376). -/
def Obligations.BootIsCoherentOrRefused : Prop :=
  State.reset.Coherent ∧ ∀ p : Params,
    ((p.schema.map Entry.key).Nodup → (State.resetWith p).Coherent) ∧
    (¬(p.schema.map Entry.key).Nodup → boot p = .refused .duplicateSchemaKey)

/-- Every step keeps the states coherent, whatever command it takes: among the rest, a daemon cycle runs only outside IDLE, only under the
unattended regime and only in the mode of the cadence, so never in Program mode (R312, R318; log 7). -/
def Obligations.EveryStepKeepsCoherence : Prop :=
  ∀ s t : State, s.Coherent → Machine.step s = .next t → t.Coherent

/-- From a coherent state no instruction faults (R332: no instruction-level fault), and STEP always completes: the block has exactly one
enabled step in every phase but IDLE and the suspended ones (R241), and in these STEP answers a state in which nothing has
changed, which is the model's choice (log 7: R241 gives those phases no internal step). -/
def Obligations.CoherentStatesNeverFault : Prop :=
  ∀ s : State, s.Coherent → (∀ i f, exec i s ≠ .fault f) ∧ (∃ t, exec .step s = .next t) ∧
    (waits s.phase = true → exec .step s = .next s)

/-- Cycles never overlap: each Start finds no open cycle, and every other event stands between a Start and its CycleDone (R81). -/
def Obligations.CyclesNeverOverlap : Prop :=
  ∀ s t : State, s.Coherent → openCycle s.trace = some (decide (s.phase ≠ .idle)) → Machine.step s = .next t →
    openCycle t.trace = some (decide (t.phase ≠ .idle))

/-- The counter advances by one with each completed daemon cycle, whatever its result, and never else (R49, R317). A daemon cycle starts
only by the sequencer, with no command pending and in the mode of the cadence; a START given by a command starts none (R312; log
7). In a coherent state a daemon cycle declares the schema only at every fifth counter value, and its first handshake's option
select has the digit `'0'` at these and `'6'` at the others, raw or encoded (R318). -/
def Obligations.CounterCountsCompletedDaemonCycles : Prop :=
  ∀ (s t : State) (es : List Event), Machine.step s = .next t → t.trace = s.trace ++ es →
    t.counter = s.counter + (if s.daemonCycle then cyclesDone es else 0) ∧
    (∀ m, .start m ∈ es → s.daemonCycle = false → (t.daemonCycle = true ↔ s.commands = []) ∧
      (s.commands = [] → m = if s.counter % 5 = 0 then .fullRead else .limitedRead)) ∧
    (s.Coherent → s.daemonCycle = true →
      (∀ l, .declareSchema l ∈ es → s.counter % 5 = 0) ∧
      (∀ S z y c, s.session = some S → S.restarted = false →
        .tx [0x06, 0x30, z, y, 0x0D, 0x0A] ∈ es ∨ .tx [0x02, 0x06, 0x30, z, y, 0x0D, 0x0A, 0x03, c] ∈ es →
        y = if s.counter % 5 = 0 then 0x30 else 0x36))

/-- The trace only grows: what is recorded stays recorded (R52, R77(b)), and no step writes the parameters or changes the registry's keys,
their order or their kinds (R46). -/
def Obligations.TraceGrowsAndLayoutStays : Prop :=
  ∀ s t : State, Machine.step s = .next t →
    (∃ es, t.trace = s.trace ++ es) ∧ t.cfg = s.cfg ∧ regLayout t.registry = regLayout s.registry

/-- A read session ends: from START every choice of read results reaches IDLE within 6·(RETRY_LIMIT + 1) + 2 session steps (R279(a)). -/
def Obligations.ReadSessionEndsWithinBound : Prop :=
  ∀ (s : State) (m : Mode) (rs : List Bytes), s.phase = .idle → m ≠ .program →
    rs.length = 6 * (s.cfg.retryLimit + 1) + 2 →
    ∃ t, exec (.start m) s = .next t ∧ ∃ n u, n ≤ rs.length ∧ runReads (rs.take n) t = .next u ∧ u.phase = .idle

/-- A timeout and a NAK at RESP_RX have the same effect: every later event and the final state are the same, up to the diagnostic
`lastCause` (R275), wherever the NAK fits MAX_FRAME_LEN; later steps run as log 2, 3 and 7 have them. -/
def Obligations.TimeoutAndNakBehaveAlike : Prop :=
  ∀ (s : State) (S : Session), s.phase = .respRx → s.session = some S → Fits s.cfg [0x15] →
    ∃ t t', exec (.rxTimeout []) s = .next t ∧ exec (.rxNak [0x15]) s = .next t' ∧
      t.registry = t'.registry ∧
      ∀ n, SameFromHere t t' (Host.Core.run Sys2Proof.core n t) (Host.Core.run Sys2Proof.core n t')

/-- The diagnostic field and the trace are read by no rule: an instruction does the same, whatever they hold (R41, R52). -/
def Obligations.NoRuleReadsCauseOrTrace : Prop :=
  ∀ (i : Instr) (s s' : State), unobserved s = unobserved s' → SameFromHere s s' (exec i s) (exec i s')

/-- Only the kinds of R332's table are raised, each by its phase's step; a raise leaves the registry as it was at the raise (R334; log 15),
publishes and declares nothing and sends nothing (R332, R333, R334). A read cycle that fails, at the raise and after its report,
leaves the registry exactly as it was at its START, so as before its first data frame (R48). -/
def Obligations.RaisesFollowTheTable : Prop :=
  (∀ (i : Instr) (s t : State), exec i s = .next t → s.phase ≠ .error → t.phase = .error →
    t.registry = s.registry ∧ (t.trace = s.trace ∨ ∃ r, t.trace = s.trace ++ [.rx r]) ∧
    ∃ S k, t.session = some S ∧ S.errKind = some k ∧ k ∈ canRaise s.phase) ∧
  (∀ (s t u : State) (m : Mode) (rs : List Bytes) (es : List Event), s.phase = .idle → m ≠ .program →
    exec (.start m) s = .next t → runReads rs t = .next u → u.trace = t.trace ++ es →
    (u.phase = .error ∨ ∃ k, .reportError k ∈ es) → u.registry = s.registry)

/-- The session fields are written only where R33 says: the mode and what derives from it never within a cycle (R34, R36, R346), the others
only in the phases of their writers, and the retry count only upward by one (R40). -/
def Obligations.SessionFieldsAreWrittenByTheirRules : Prop :=
  ∀ (i : Instr) (s t : State) (S S' : Session), exec i s = .next t → s.phase ≠ .idle → s.session = some S →
    t.session = some S' →
    S'.mode = S.mode ∧ S'.readFlag = S.readFlag ∧ S'.isShortCycle = S.isShortCycle ∧
    (S'.restarted ≠ S.restarted → s.phase = .retry) ∧
    (S'.password ≠ S.password → s.phase = .awaitPassword) ∧
    (S'.head ≠ S.head → s.phase = .respRx) ∧
    (S'.baud ≠ S.baud → s.phase = .identRx) ∧
    (S'.retries ≠ S.retries → S'.retries = S.retries + 1 ∧ (s.phase = .respRx ∨ s.phase = .retry)) ∧
    (S'.lastCause ≠ S.lastCause → s.phase = .identRx ∨ s.phase = .respRx) ∧
    (S'.schemaDeclared ≠ S.schemaDeclared → s.phase = .data) ∧
    (S'.cmdHead ≠ S.cmdHead → s.phase = .cmdPrompt ∨ s.phase = .cmdTx) ∧
    (S'.cmdBody ≠ S.cmdBody → s.phase = .awaitCmdText ∨ s.phase = .cmdTx) ∧
    (S'.pending ≠ S.pending → s.phase = .respRx ∨ s.phase = .data) ∧
    (S'.errKind ≠ S.errKind → t.phase = .error ∧ s.phase ∈ [.identRx, .respRx, .data, .retry]) ∧
    (S'.result ≠ S.result → s.phase ∈ [.awaitPassword, .xferExit, .cmdPrompt, .awaitCmdText, .error])

/-- The frame of the operations: each that only answers completes in every state and changes only its answer (R140, R180); the registry
writers complete in every phase of a cycle and change the registry's values too, never its layout, and are refused between cycles
(R85). That STATUS_PARSE and APPLY_FRAME complete without the trap is the model's reading (log 10), that the writers run in every
phase of a cycle its choice (log 12). The answer stands in `output` (log 4). -/
def Obligations.OperationsChangeOnlyTheirAnswer : Prop :=
  ∀ (i : Instr) (s : State),
    (onlyAnswers i = true → ∃ o, exec i s = .next { s with output := some o }) ∧
    (writesRegistry i = true → s.phase ≠ .idle → ∃ o reg, exec i s = .next { s with registry := reg, output := some o } ∧
      regLayout reg = regLayout s.registry) ∧
    (writesRegistry i = true → s.phase = .idle → exec i s = .refused .registryBetweenCycles)

/-- The frame of everything else: messages, read results, STEP, START, answers and ERROR change neither the parameters, the pending
commands nor the last answer; the registry only in DATA (R210). The model's own choices: the counter and the mark of a daemon cycle
change only in the DONE step, where R317 has the sequencer advance the counter after CycleDone (log 7), and the free draws only by
STEP in a phase that reads (log 3). -/
def Obligations.SessionInstructionsKeepTheRest : Prop :=
  ∀ (i : Instr) (s t : State), onlyAnswers i = false → writesRegistry i = false → exec i s = .next t →
    t.cfg = s.cfg ∧ t.commands = s.commands ∧ t.output = s.output ∧
    (t.registry ≠ s.registry → s.phase = .data ∧ i = .step) ∧
    (t.counter ≠ s.counter → s.phase = .done ∧ i = .step) ∧
    (t.daemonCycle ≠ s.daemonCycle → s.phase = .done ∧ i = .step) ∧
    (t.draws ≠ s.draws → i = .step ∧ (s.phase = .identRx ∨ s.phase = .respRx))

/-- The schema is declared at most once a cycle, only in DATA, and never in a short cycle: a step that declares it does so once, finds
`schemaDeclared` false and leaves it true, and once true it stays true to the end of the cycle (R36, R42, R263). -/
def Obligations.SchemaIsDeclaredAtMostOnceACycle : Prop :=
  ∀ (i : Instr) (s t : State) (es : List Event), exec i s = .next t → t.trace = s.trace ++ es →
    (∀ l, .declareSchema l ∈ es →
      declarations es = 1 ∧ s.phase = .data ∧ l = regLayout s.registry ∧ ∃ S S', s.session = some S ∧
        S.isShortCycle = false ∧ S.schemaDeclared = false ∧ t.session = some S' ∧ S'.schemaDeclared = true) ∧
    (∀ S S', s.phase ≠ .idle → s.session = some S → t.session = some S' → S.schemaDeclared = true → S'.schemaDeclared = true)

/-- A read session asks the operator nothing, sends no password and no command, and enters no phase of the command loop (R345). -/
def Obligations.ReadSessionNeverPromptsOrCommands : Prop :=
  ∀ (i : Instr) (s t : State) (S : Session) (es : List Event), s.Coherent → s.session = some S → S.mode ≠ .program →
    exec i s = .next t → t.trace = s.trace ++ es →
    (∀ k, .prompt k ∉ es) ∧
    (∀ m, .tx m ∈ es → ∀ x ∈ [[0x50, 0x31], [0x52, 0x31], [0x57, 0x31]], ¬([0x01] ++ x) <+: m) ∧
    t.phase ∉ [.awaitPassword, .pwTx, .cmdPrompt, .awaitCmdText, .cmdTx, .discFinal]

/-- A wire row where the block's step is another is refused (R241, log 8): a message in a phase that does not send it, a read result in
a phase that reads nothing, and ERROR outside phase ERROR. -/
def Obligations.WireRowsAreRefusedOutOfTurn : Prop :=
  ∀ (s : State) (z y : Byte) (pw t r : Bytes),
    (s.phase ≠ .discEntry → s.phase ≠ .discFinal → exec .disconnect s = .refused .transmissionNotDue) ∧
    (s.phase ≠ .identTx → exec .ident s = .refused .transmissionNotDue) ∧
    (s.phase ≠ .negTx → exec (.optsel z y) s = .refused .transmissionNotDue ∧
      exec (.optselEncoded z y) s = .refused .transmissionNotDue) ∧
    (s.phase ≠ .pwTx → exec (.password pw) s = .refused .transmissionNotDue) ∧
    (s.phase ≠ .cmdTx → exec (.read t) s = .refused .transmissionNotDue ∧
      exec (.write t) s = .refused .transmissionNotDue) ∧
    (s.phase ≠ .identRx → s.phase ≠ .respRx → ∀ i ∈ rxRows r, exec i s = .refused .readNotDue) ∧
    (s.phase ≠ .error → exec .error s = .refused .errorStepNotDue)
end

