-- ==== Sys2Proof/Laws/Codec.lean ====
section
/-! SUPPORT. Laws/Codec.lean: what the codec's scans do on lists of bytes. -/

namespace Sys2Proof.Machine

@[simp] theorem feed_accumulating (n : Nat) (b : Byte) :
    SumScan.feed ⟨true, n⟩ b = ⟨true, (n + b.toNat) % checksumModulus⟩ := rfl

@[simp] theorem feed_soh (n : Nat) : SumScan.feed ⟨false, n⟩ soh = ⟨true, n⟩ := rfl

@[simp] theorem feed_stx (n : Nat) : SumScan.feed ⟨false, n⟩ stx = ⟨true, n⟩ := rfl

theorem feed_waiting {n : Nat} {b : Byte} (h : b ≠ soh ∧ b ≠ stx) : SumScan.feed ⟨false, n⟩ b = ⟨false, n⟩ := by
  unfold SumScan.feed
  rw [if_neg (by simp), if_neg (not_or.mpr h)]

/-- Once accumulating, the scan adds every byte modulo 128. -/
theorem foldl_feed_accumulating (bs : Bytes) (n : Nat) (hn : n < checksumModulus) :
    bs.foldl SumScan.feed ⟨true, n⟩ = ⟨true, (n + (bs.map BitVec.toNat).sum) % checksumModulus⟩ := by
  induction bs generalizing n with
  | nil => simp [Nat.mod_eq_of_lt hn]
  | cons b bs ih =>
    rw [List.foldl_cons, feed_accumulating, ih _ (Nat.mod_lt _ (by decide))]
    simp [Nat.add_assoc]

/-- The scan's sum stays below the modulus. -/
theorem foldl_feed_sum_lt (bs : Bytes) (c : SumScan) (h : c.sum < checksumModulus) :
    (bs.foldl SumScan.feed c).sum < checksumModulus := by
  induction bs generalizing c with
  | nil => exact h
  | cons b bs ih =>
    refine ih _ ?_
    unfold SumScan.feed
    split
    · exact Nat.mod_lt _ (by decide)
    · split <;> exact h

theorem checksum_toNat (bs : Bytes) : (checksum bs).toNat = (bs.foldl SumScan.feed ⟨false, 0⟩).sum := by
  have h := foldl_feed_sum_lt bs ⟨false, 0⟩ (by decide)
  simp only [checksum, BitVec.toNat_ofNat]
  exact Nat.mod_eq_of_lt (Nat.lt_trans h (by decide))

/-- A frame that opens with SOH or STX sums every later byte. -/
theorem checksum_start {m : Byte} (hm : m = soh ∨ m = stx) (bs : Bytes) :
    checksum (m :: bs) = BitVec.ofNat 8 ((bs.map BitVec.toNat).sum % checksumModulus) := by
  have h : SumScan.feed ⟨false, 0⟩ m = ⟨true, 0⟩ := by rcases hm with rfl | rfl <;> rfl
  simp only [checksum, List.foldl_cons, h]
  rw [foldl_feed_accumulating _ _ (by decide)]
  simp

/-- Bytes before the first SOH or STX are skipped. -/
theorem checksum_skip {b : Byte} (h : b ≠ soh ∧ b ≠ stx) (bs : Bytes) : checksum (b :: bs) = checksum bs := by
  simp [checksum, feed_waiting h]

@[simp] theorem feed_cap_soh (c : CapScan) : c.feed soh = { c with capHead := true, capBody := false } := by
  simp [CapScan.feed]

@[simp] theorem feed_cap_stx (c : CapScan) : c.feed stx = { c with capHead := false, capBody := true } := by
  simp [CapScan.feed]

@[simp] theorem feed_cap_etx (c : CapScan) : c.feed etx = { c with capHead := false, capBody := false } := by
  simp [CapScan.feed]

/-- Marker-free bytes in the open head region are captured as they stand. -/
theorem foldl_feed_head (h : Bytes) (hm : ∀ b ∈ h, b ≠ soh ∧ b ≠ stx ∧ b ≠ etx) (hd bd : Bytes) :
    h.foldl CapScan.feed ⟨true, false, hd, bd⟩ = ⟨true, false, hd ++ h, bd⟩ := by
  induction h generalizing hd with
  | nil => simp
  | cons b h ih =>
    have hb := hm b (by simp)
    rw [List.foldl_cons]
    have : CapScan.feed ⟨true, false, hd, bd⟩ b = ⟨true, false, hd ++ [b], bd⟩ := by
      unfold CapScan.feed
      rw [if_neg hb.1, if_neg hb.2.1, if_neg hb.2.2, if_pos rfl]
    rw [this, ih fun c hc => hm c (by simp [hc])]
    simp

/-- Marker-free bytes in the open body region are captured as they stand. -/
theorem foldl_feed_body (h : Bytes) (hm : ∀ b ∈ h, b ≠ soh ∧ b ≠ stx ∧ b ≠ etx) (hd bd : Bytes) :
    h.foldl CapScan.feed ⟨false, true, hd, bd⟩ = ⟨false, true, hd, bd ++ h⟩ := by
  induction h generalizing bd with
  | nil => simp
  | cons b h ih =>
    have hb := hm b (by simp)
    rw [List.foldl_cons]
    have : CapScan.feed ⟨false, true, hd, bd⟩ b = ⟨false, true, hd, bd ++ [b]⟩ := by
      unfold CapScan.feed
      rw [if_neg hb.1, if_neg hb.2.1, if_neg hb.2.2, if_neg (by simp), if_pos rfl]
    rw [this, ih fun c hc => hm c (by simp [hc])]
    simp

/-- DECODE of bytes and a claim: the regions of the bytes, and the claim compared with their checksum. -/
theorem decodeFrame_append (bs : Bytes) (c : Byte) (h : bs ≠ []) :
    decodeFrame (bs ++ [c]) =
      { head := (bs.foldl CapScan.feed ⟨false, false, [], []⟩).head,
        body := (bs.foldl CapScan.feed ⟨false, false, [], []⟩).body, checksumValid := decide (c = checksum bs) } := by
  have hl : ¬(bs ++ [c]).length ≤ 1 := by
    have := List.length_pos_iff.mpr h
    simp; omega
  rw [decodeFrame, if_neg hl]
  simp

theorem frameBytes_ne_nil (h b : Bytes) : frameBytes h b ≠ [] := by simp [frameBytes]

/-- The bytes before the check byte of an encoded frame. -/
@[simp] theorem encodeFrame_dropLast (h b : Bytes) : (encodeFrame h b).dropLast = frameBytes h b := by
  simp [encodeFrame]

@[simp] theorem encodeFrame_getLast (h b : Bytes) : (encodeFrame h b).getLast? = some (checksum (frameBytes h b)) := by
  simp [encodeFrame]

theorem afterPrefix_append (p bs : Bytes) : afterPrefix p (p ++ bs) = some bs := by
  induction p with
  | nil => cases bs <;> rfl
  | cons a p ih => simp [afterPrefix, ih]

/-- `afterPrefix` answers the rest exactly where the prefix stands. -/
theorem afterPrefix_eq_some {p bs rest : Bytes} : afterPrefix p bs = some rest ↔ bs = p ++ rest := by
  induction p generalizing bs with
  | nil => simp [afterPrefix, eq_comm]
  | cons a p ih =>
    cases bs with
    | nil => simp [afterPrefix]
    | cons b bs =>
      by_cases h : a = b
      · simp [afterPrefix, h, ih]
      · simp [afterPrefix, h, Ne.symm h]

@[simp] theorem beforeLast_append (b : Byte) (bs : Bytes) : beforeLast b (bs ++ [b]) = some bs := by
  simp [beforeLast]

/-- `beforeLast` answers the front exactly where the byte is last. -/
theorem beforeLast_eq_some {b : Byte} {bs front : Bytes} : beforeLast b bs = some front ↔ bs = front ++ [b] := by
  constructor
  · intro h
    unfold beforeLast at h
    split at h
    · rename_i hl
      obtain ⟨ys, rfl⟩ := List.getLast?_eq_some_iff.mp hl
      simp_all
    · cases h
  · rintro rfl
    simp

end Sys2Proof.Machine
end

