-- ==== Sys2Proof/Laws/PerInstr.lean ====
section
/-! SUPPORT. Laws/PerInstr.lean: the family `Surface`, one lemma per instruction: an operation is its own tagged value on the command
interface, and every other row is bytes with a direction (30_encoding.md R100, R121). -/

namespace Sys2Proof.Laws.Surface

/-- An operation is encoded as itself; a row of the wire surface as bytes sent or received, and it is no operation. -/
def Statement (i : Instr) : Prop :=
  (i.isOperation = true ∧ encode i = .op i) ∨ (i.isOperation = false ∧ ∃ bs, encode i = .tx bs ∨ encode i = .rx bs)

theorem disconnect : Statement .disconnect := .inr ⟨rfl, _, .inl rfl⟩
theorem ident : Statement .ident := .inr ⟨rfl, _, .inl rfl⟩
theorem optsel (z y : Byte) : Statement (.optsel z y) := .inr ⟨rfl, _, .inl rfl⟩
theorem optselEncoded (z y : Byte) : Statement (.optselEncoded z y) := .inr ⟨rfl, _, .inl rfl⟩
theorem password (pw : Bytes) : Statement (.password pw) := .inr ⟨rfl, _, .inl rfl⟩
theorem read (t : Bytes) : Statement (.read t) := .inr ⟨rfl, _, .inl rfl⟩
theorem write (t : Bytes) : Statement (.write t) := .inr ⟨rfl, _, .inl rfl⟩
theorem rxIdentReply (r : Bytes) : Statement (.rxIdentReply r) := .inr ⟨rfl, _, .inr rfl⟩
theorem rxP0 (r : Bytes) : Statement (.rxP0 r) := .inr ⟨rfl, _, .inr rfl⟩
theorem rxNak (r : Bytes) : Statement (.rxNak r) := .inr ⟨rfl, _, .inr rfl⟩
theorem rxTimeout (r : Bytes) : Statement (.rxTimeout r) := .inr ⟨rfl, _, .inr rfl⟩
theorem rxAck (r : Bytes) : Statement (.rxAck r) := .inr ⟨rfl, _, .inr rfl⟩
theorem rxUnexpectedHead (r : Bytes) : Statement (.rxUnexpectedHead r) := .inr ⟨rfl, _, .inr rfl⟩
theorem rxDataValid (r : Bytes) : Statement (.rxDataValid r) := .inr ⟨rfl, _, .inr rfl⟩
theorem rxDataInvalid (r : Bytes) : Statement (.rxDataInvalid r) := .inr ⟨rfl, _, .inr rfl⟩
theorem encode (head body : Bytes) : Statement (.encode head body) := .inl ⟨rfl, rfl⟩
theorem checksum (bs : Bytes) : Statement (.checksum bs) := .inl ⟨rfl, rfl⟩
theorem decode (bs : Bytes) : Statement (.decode bs) := .inl ⟨rfl, rfl⟩
theorem statusParse (text : Bytes) : Statement (.statusParse text) := .inl ⟨rfl, rfl⟩
theorem statusDecode (w : StatusWord) : Statement (.statusDecode w) := .inl ⟨rfl, rfl⟩
theorem regUpdate (key value : Bytes) : Statement (.regUpdate key value) := .inl ⟨rfl, rfl⟩
theorem regSnapshot : Statement .regSnapshot := .inl ⟨rfl, rfl⟩
theorem parseLine (line : Bytes) : Statement (.parseLine line) := .inl ⟨rfl, rfl⟩
theorem parseBody (body : Bytes) : Statement (.parseBody body) := .inl ⟨rfl, rfl⟩
theorem applyFrame (body : Bytes) : Statement (.applyFrame body) := .inl ⟨rfl, rfl⟩
theorem classify (f : Frame) : Statement (.classify f) := .inl ⟨rfl, rfl⟩
theorem step : Statement .step := .inl ⟨rfl, rfl⟩
theorem start (mode : Mode) : Statement (.start mode) := .inl ⟨rfl, rfl⟩
theorem input (bs : Bytes) : Statement (.input bs) := .inl ⟨rfl, rfl⟩
theorem choice (c : Choice) : Statement (.choice c) := .inl ⟨rfl, rfl⟩
theorem cancel : Statement .cancel := .inl ⟨rfl, rfl⟩
theorem error : Statement .error := .inl ⟨rfl, rfl⟩

end Sys2Proof.Laws.Surface
end

