-- ==== Sys2Proof/Laws/Registry.lean ====
section
/-! SUPPORT. Laws/Registry.lean: the form of a registry and what the registry operations keep of it. The block has no numbered memory; its
data store is the registry, and its canonical form is the layout: keys, order and kinds as SCHEMA has them (R46, R70, R78). -/

namespace Sys2Proof.Machine

/-- REG_UPDATE keeps keys, order and kinds. -/
@[simp] theorem regUpdate_layout (k v : Bytes) (reg : List Entry) : regLayout (regUpdate k v reg).1 = regLayout reg := by
  induction reg with
  | nil => rfl
  | cons e es ih =>
    unfold regUpdate
    split
    · rfl
    · simpa [regLayout] using ih

/-- The layout determines whether the keys are unique. -/
theorem keysUnique_of_layout {r r' : List Entry} (h : regLayout r = regLayout r') (hu : keysUnique r) : keysUnique r' := by
  have hk : ∀ q : List Entry, q.map Entry.key = (regLayout q).map Prod.fst := by
    intro q; simp [regLayout, Function.comp_def]
  simpa only [keysUnique, hk, h] using hu

/-- The layout determines the keys. -/
theorem keys_of_layout {r r' : List Entry} (h : regLayout r = regLayout r') :
    r.map Entry.key = r'.map Entry.key := by
  have hk : ∀ q : List Entry, q.map Entry.key = (regLayout q).map Prod.fst := by
    intro q; simp [regLayout, Function.comp_def]
  simp only [hk, h]

/-- An unknown key is a no-op (R212). -/
theorem regUpdate_unknown {k : Bytes} (v : Bytes) {reg : List Entry} (h : k ∉ reg.map Entry.key) :
    regUpdate k v reg = (reg, false) := by
  induction reg with
  | nil => rfl
  | cons e es ih =>
    simp only [List.map_cons, List.mem_cons, not_or] at h
    simp [regUpdate, Ne.symm h.1, ih h.2]

/-- A known key answers true. -/
theorem regUpdate_known {k : Bytes} (v : Bytes) {reg : List Entry} (h : k ∈ reg.map Entry.key) :
    (regUpdate k v reg).2 = true := by
  induction reg with
  | nil => simp at h
  | cons e es ih =>
    by_cases he : e.key = k
    · simp [regUpdate, he]
    · have h' : k ∈ es.map Entry.key := by simpa [Ne.symm he] using h
      simp [regUpdate, he, ih h']

/-- A read after an update of the same key, where the registry has it. -/
theorem regRead_update_same {k : Bytes} (v : Bytes) {reg : List Entry} (h : k ∈ reg.map Entry.key) :
    regRead k (regUpdate k v reg).1 = some v := by
  induction reg with
  | nil => simp at h
  | cons e es ih =>
    by_cases he : e.key = k
    · simp [regUpdate, regRead, he]
    · have h' : k ∈ es.map Entry.key := by simpa [Ne.symm he] using h
      simpa [regUpdate, regRead, he] using ih h'

/-- An update leaves every other key alone. -/
theorem regRead_update_other {k k' : Bytes} (v : Bytes) (reg : List Entry) (h : k' ≠ k) :
    regRead k' (regUpdate k v reg).1 = regRead k' reg := by
  induction reg with
  | nil => rfl
  | cons e es ih =>
    by_cases he : e.key = k
    · simp [regUpdate, regRead, he, Ne.symm h]
    · by_cases hk : e.key = k'
      · subst hk
        simp [regUpdate, regRead, h]
      · simpa [regUpdate, regRead, he, hk] using ih

/-- A run of updates keeps the layout. -/
theorem foldl_update_layout {α : Type} (f : α → Bytes) (g : α → Bytes) (l : List α) (reg : List Entry) :
    regLayout (l.foldl (fun r x => (regUpdate (f x) (g x) r).1) reg) = regLayout reg := by
  induction l generalizing reg with
  | nil => rfl
  | cons x l ih => rw [List.foldl_cons, ih, regUpdate_layout]

/-- A run of updates leaves a key alone that none of them names. -/
theorem regRead_foldl_other {α : Type} (f : α → Bytes) (g : α → Bytes) (k : Bytes) (l : List α) (reg : List Entry)
    (h : ∀ x ∈ l, f x ≠ k) : regRead k (l.foldl (fun r x => (regUpdate (f x) (g x) r).1) reg) = regRead k reg := by
  induction l generalizing reg with
  | nil => rfl
  | cons x l ih =>
    rw [List.foldl_cons, ih _ fun y hy => h y (by simp [hy]),
      regRead_update_other _ _ (Ne.symm (h x (by simp)))]

@[simp] theorem writeStatus_layout (p : Params) (w : StatusWord) (reg : List Entry) :
    regLayout (writeStatus p w reg) = regLayout reg :=
  foldl_update_layout (fun fx : StatusField × Nat => statusKey p fx.1) (fun fx => statusText fx.2) _ reg

/-- One applied pair keeps the layout. -/
theorem applyPair_layout {p : Params} {kv : Bytes × Bytes} {reg reg' : List Entry} (h : applyPair p kv reg = some reg') :
    regLayout reg' = regLayout reg := by
  unfold applyPair at h
  simp only at h
  split at h
  · obtain ⟨w, -, rfl⟩ := Option.map_eq_some_iff.mp h
    simp
  · cases h; simp

/-- The pairs of a frame keep the layout. -/
theorem applyPairs_layout {p : Params} {kvs : List (Bytes × Bytes)} {reg reg' : List Entry}
    (h : applyPairs p kvs reg = some reg') : regLayout reg' = regLayout reg := by
  induction kvs generalizing reg with
  | nil => cases h; rfl
  | cons kv kvs ih =>
    obtain ⟨r, hr, h'⟩ := Option.bind_eq_some_iff.mp h
    rw [ih h', applyPair_layout hr]

/-- APPLY_FRAME keeps keys, order and kinds (R46, R218). -/
theorem applyFrame_layout {p : Params} {body : Bytes} {reg reg' : List Entry} (h : applyFrame p body reg = some reg') :
    regLayout reg' = regLayout reg := applyPairs_layout h

/-- The pairs of a joined list apply one part after the other (R219). -/
theorem applyPairs_append (p : Params) (l l' : List (Bytes × Bytes)) (reg : List Entry) :
    applyPairs p (l ++ l') reg = (applyPairs p l reg).bind (applyPairs p l') := by
  induction l generalizing reg with
  | nil => rfl
  | cons kv l ih =>
    simp only [List.cons_append, applyPairs, Option.bind_assoc]
    congr 1
    funext r
    exact ih r

/-- A body without LF is one line; an LF ends the first line (R217). -/
theorem splitLines_no_lf {l : Bytes} (h : lf ∉ l) : splitLines l = [l] := by
  induction l with
  | nil => rfl
  | cons b l ih =>
    simp only [List.mem_cons, not_or] at h
    rw [splitLines, if_neg (Ne.symm h.1), ih h.2]

theorem splitLines_lf {l : Bytes} (h : lf ∉ l) (rest : Bytes) : splitLines (l ++ lf :: rest) = l :: splitLines rest := by
  induction l with
  | nil => simp [splitLines]
  | cons b l ih =>
    simp only [List.mem_cons, not_or] at h
    rw [List.cons_append, splitLines, if_neg (Ne.symm h.1), ih h.2]

end Sys2Proof.Machine
end

