-- ==== Sys2Proof/Laws/State.lean ====
section
/-! SUPPORT. Laws/State.lean: one lemma per field of State for each operation of Ops.lean, and what the guards (the accessors that
fault, the guard of the registry writers, the sequencer's claim) can answer. -/

namespace Sys2Proof.Machine

@[simp] theorem record_cfg (s : State) (e : Event) : (s.record e).cfg = s.cfg := rfl
@[simp] theorem record_phase (s : State) (e : Event) : (s.record e).phase = s.phase := rfl
@[simp] theorem record_session (s : State) (e : Event) : (s.record e).session = s.session := rfl
@[simp] theorem record_registry (s : State) (e : Event) : (s.record e).registry = s.registry := rfl
@[simp] theorem record_counter (s : State) (e : Event) : (s.record e).counter = s.counter := rfl
@[simp] theorem record_daemonCycle (s : State) (e : Event) : (s.record e).daemonCycle = s.daemonCycle := rfl
@[simp] theorem record_trace (s : State) (e : Event) : (s.record e).trace = s.trace ++ [e] := rfl
@[simp] theorem record_commands (s : State) (e : Event) : (s.record e).commands = s.commands := rfl
@[simp] theorem record_draws (s : State) (e : Event) : (s.record e).draws = s.draws := rfl
@[simp] theorem record_output (s : State) (e : Event) : (s.record e).output = s.output := rfl

@[simp] theorem moveTo_cfg (s : State) (p : Phase) : (s.moveTo p).cfg = s.cfg := rfl
@[simp] theorem moveTo_phase (s : State) (p : Phase) : (s.moveTo p).phase = p := rfl
@[simp] theorem moveTo_session (s : State) (p : Phase) : (s.moveTo p).session = s.session := rfl
@[simp] theorem moveTo_registry (s : State) (p : Phase) : (s.moveTo p).registry = s.registry := rfl
@[simp] theorem moveTo_counter (s : State) (p : Phase) : (s.moveTo p).counter = s.counter := rfl
@[simp] theorem moveTo_daemonCycle (s : State) (p : Phase) : (s.moveTo p).daemonCycle = s.daemonCycle := rfl
@[simp] theorem moveTo_trace (s : State) (p : Phase) : (s.moveTo p).trace = s.trace := rfl
@[simp] theorem moveTo_commands (s : State) (p : Phase) : (s.moveTo p).commands = s.commands := rfl
@[simp] theorem moveTo_draws (s : State) (p : Phase) : (s.moveTo p).draws = s.draws := rfl
@[simp] theorem moveTo_output (s : State) (p : Phase) : (s.moveTo p).output = s.output := rfl

@[simp] theorem setSession_cfg (s : State) (S : Session) : (s.setSession S).cfg = s.cfg := rfl
@[simp] theorem setSession_phase (s : State) (S : Session) : (s.setSession S).phase = s.phase := rfl
@[simp] theorem setSession_session (s : State) (S : Session) : (s.setSession S).session = some S := rfl
@[simp] theorem setSession_registry (s : State) (S : Session) : (s.setSession S).registry = s.registry := rfl
@[simp] theorem setSession_counter (s : State) (S : Session) : (s.setSession S).counter = s.counter := rfl
@[simp] theorem setSession_daemonCycle (s : State) (S : Session) : (s.setSession S).daemonCycle = s.daemonCycle := rfl
@[simp] theorem setSession_trace (s : State) (S : Session) : (s.setSession S).trace = s.trace := rfl
@[simp] theorem setSession_commands (s : State) (S : Session) : (s.setSession S).commands = s.commands := rfl
@[simp] theorem setSession_draws (s : State) (S : Session) : (s.setSession S).draws = s.draws := rfl
@[simp] theorem setSession_output (s : State) (S : Session) : (s.setSession S).output = s.output := rfl

@[simp] theorem commit_cfg (s : State) (reg : List Entry) : (s.commit reg).cfg = s.cfg := rfl
@[simp] theorem commit_phase (s : State) (reg : List Entry) : (s.commit reg).phase = s.phase := rfl
@[simp] theorem commit_session (s : State) (reg : List Entry) : (s.commit reg).session = s.session := rfl
@[simp] theorem commit_registry (s : State) (reg : List Entry) : (s.commit reg).registry = reg := rfl
@[simp] theorem commit_counter (s : State) (reg : List Entry) : (s.commit reg).counter = s.counter := rfl
@[simp] theorem commit_daemonCycle (s : State) (reg : List Entry) : (s.commit reg).daemonCycle = s.daemonCycle := rfl
@[simp] theorem commit_trace (s : State) (reg : List Entry) : (s.commit reg).trace = s.trace := rfl
@[simp] theorem commit_commands (s : State) (reg : List Entry) : (s.commit reg).commands = s.commands := rfl
@[simp] theorem commit_draws (s : State) (reg : List Entry) : (s.commit reg).draws = s.draws := rfl
@[simp] theorem commit_output (s : State) (reg : List Entry) : (s.commit reg).output = s.output := rfl

@[simp] theorem answer_cfg (s : State) (o : Output) : (s.answer o).cfg = s.cfg := rfl
@[simp] theorem answer_phase (s : State) (o : Output) : (s.answer o).phase = s.phase := rfl
@[simp] theorem answer_session (s : State) (o : Output) : (s.answer o).session = s.session := rfl
@[simp] theorem answer_registry (s : State) (o : Output) : (s.answer o).registry = s.registry := rfl
@[simp] theorem answer_counter (s : State) (o : Output) : (s.answer o).counter = s.counter := rfl
@[simp] theorem answer_daemonCycle (s : State) (o : Output) : (s.answer o).daemonCycle = s.daemonCycle := rfl
@[simp] theorem answer_trace (s : State) (o : Output) : (s.answer o).trace = s.trace := rfl
@[simp] theorem answer_commands (s : State) (o : Output) : (s.answer o).commands = s.commands := rfl
@[simp] theorem answer_draws (s : State) (o : Output) : (s.answer o).draws = s.draws := rfl
@[simp] theorem answer_output (s : State) (o : Output) : (s.answer o).output = some o := rfl

@[simp] theorem send_cfg (s : State) (bs : Bytes) : (s.send bs).cfg = s.cfg := rfl
@[simp] theorem send_phase (s : State) (bs : Bytes) : (s.send bs).phase = s.phase := rfl
@[simp] theorem send_session (s : State) (bs : Bytes) : (s.send bs).session = s.session := rfl
@[simp] theorem send_registry (s : State) (bs : Bytes) : (s.send bs).registry = s.registry := rfl
@[simp] theorem send_counter (s : State) (bs : Bytes) : (s.send bs).counter = s.counter := rfl
@[simp] theorem send_daemonCycle (s : State) (bs : Bytes) : (s.send bs).daemonCycle = s.daemonCycle := rfl
@[simp] theorem send_trace (s : State) (bs : Bytes) : (s.send bs).trace = s.trace ++ [.tx bs] := rfl
@[simp] theorem send_commands (s : State) (bs : Bytes) : (s.send bs).commands = s.commands := rfl
@[simp] theorem send_draws (s : State) (bs : Bytes) : (s.send bs).draws = s.draws := rfl
@[simp] theorem send_output (s : State) (bs : Bytes) : (s.send bs).output = s.output := rfl

@[simp] theorem publishAll_cfg (s : State) : s.publishAll.cfg = s.cfg := rfl
@[simp] theorem publishAll_phase (s : State) : s.publishAll.phase = s.phase := rfl
@[simp] theorem publishAll_session (s : State) : s.publishAll.session = s.session := rfl
@[simp] theorem publishAll_registry (s : State) : s.publishAll.registry = s.registry := rfl
@[simp] theorem publishAll_counter (s : State) : s.publishAll.counter = s.counter := rfl
@[simp] theorem publishAll_daemonCycle (s : State) : s.publishAll.daemonCycle = s.daemonCycle := rfl
@[simp] theorem publishAll_trace (s : State) : s.publishAll.trace = s.trace ++ (regSnapshot s.registry).map fun e => .publish e.1 e.2.2 := rfl
@[simp] theorem publishAll_commands (s : State) : s.publishAll.commands = s.commands := rfl
@[simp] theorem publishAll_draws (s : State) : s.publishAll.draws = s.draws := rfl
@[simp] theorem publishAll_output (s : State) : s.publishAll.output = s.output := rfl

@[simp] theorem raiseError_cfg (k : ErrorKind) (S : Session) (s : State) : (raiseError k S s).cfg = s.cfg := rfl
@[simp] theorem raiseError_phase (k : ErrorKind) (S : Session) (s : State) : (raiseError k S s).phase = .error := rfl
@[simp] theorem raiseError_session (k : ErrorKind) (S : Session) (s : State) : (raiseError k S s).session = some { S with errKind := some k } := rfl
@[simp] theorem raiseError_registry (k : ErrorKind) (S : Session) (s : State) : (raiseError k S s).registry = s.registry := rfl
@[simp] theorem raiseError_counter (k : ErrorKind) (S : Session) (s : State) : (raiseError k S s).counter = s.counter := rfl
@[simp] theorem raiseError_daemonCycle (k : ErrorKind) (S : Session) (s : State) : (raiseError k S s).daemonCycle = s.daemonCycle := rfl
@[simp] theorem raiseError_trace (k : ErrorKind) (S : Session) (s : State) : (raiseError k S s).trace = s.trace := rfl
@[simp] theorem raiseError_commands (k : ErrorKind) (S : Session) (s : State) : (raiseError k S s).commands = s.commands := rfl
@[simp] theorem raiseError_draws (k : ErrorKind) (S : Session) (s : State) : (raiseError k S s).draws = s.draws := rfl
@[simp] theorem raiseError_output (k : ErrorKind) (S : Session) (s : State) : (raiseError k S s).output = s.output := rfl

/-- Claiming a cycle writes `daemonCycle` and nothing else. -/
theorem claimCycle_eq (s : State) :
    claimCycle s = { s with daemonCycle := s.daemonCycle || decide (sequencerDue s) } := by
  unfold claimCycle
  split <;> simp [*]

@[simp] theorem claimCycle_cfg (s : State) : (claimCycle s).cfg = s.cfg := by simp [claimCycle_eq]
@[simp] theorem claimCycle_phase (s : State) : (claimCycle s).phase = s.phase := by simp [claimCycle_eq]
@[simp] theorem claimCycle_session (s : State) : (claimCycle s).session = s.session := by simp [claimCycle_eq]
@[simp] theorem claimCycle_registry (s : State) : (claimCycle s).registry = s.registry := by simp [claimCycle_eq]
@[simp] theorem claimCycle_counter (s : State) : (claimCycle s).counter = s.counter := by simp [claimCycle_eq]
@[simp] theorem claimCycle_trace (s : State) : (claimCycle s).trace = s.trace := by simp [claimCycle_eq]
@[simp] theorem claimCycle_commands (s : State) : (claimCycle s).commands = s.commands := by simp [claimCycle_eq]
@[simp] theorem claimCycle_draws (s : State) : (claimCycle s).draws = s.draws := by simp [claimCycle_eq]
@[simp] theorem claimCycle_output (s : State) : (claimCycle s).output = s.output := by simp [claimCycle_eq]

theorem claimCycle_due {s : State} (h : sequencerDue s) : claimCycle s = { s with daemonCycle := true } := if_pos h

theorem claimCycle_not_due {s : State} (h : ¬sequencerDue s) : claimCycle s = s := if_neg h

/-- A registry writer outside IDLE runs its rule. -/
theorem duringCycle_of_ne {s : State} (rule : Result) (h : s.phase ≠ .idle) : duringCycle s rule = rule := by
  unfold duringCycle
  split
  · exact absurd ‹_› h
  · rfl

/-- A registry writer in IDLE is refused. -/
theorem duringCycle_idle {s : State} (rule : Result) (h : s.phase = .idle) :
    duringCycle s rule = .refused .registryBetweenCycles := by simp [duringCycle, h]

/-- A registry writer that answers a next state ran within a cycle. -/
theorem duringCycle_next {s t : State} {rule : Result} (h : duringCycle s rule = .next t) :
    s.phase ≠ .idle ∧ rule = .next t := by
  unfold duringCycle at h
  split at h
  · cases h
  · exact ⟨by assumption, h⟩

@[simp] theorem onSession_some {s : State} {S : Session} (rule : Session → Result) (h : s.session = some S) :
    onSession s rule = rule S := by simp [onSession, h]

@[simp] theorem onField_some {α : Type} (f : StagedField) (a : α) (rule : α → Result) :
    onField f (some a) rule = rule a := rfl

/-- A rule over the session record that answers a next state found the record. -/
theorem onSession_next {s t : State} {rule : Session → Result} (h : onSession s rule = .next t) :
    ∃ S, s.session = some S ∧ rule S = .next t := by
  unfold onSession at h
  split at h
  · exact ⟨_, by assumption, h⟩
  · cases h

/-- A rule over a field that answers a next state found the field. -/
theorem onField_next {α : Type} {f : StagedField} {x : Option α} {rule : α → Result} {t : State}
    (h : onField f x rule = .next t) : ∃ a, x = some a ∧ rule a = .next t := by
  cases x with
  | some a => exact ⟨a, rfl, h⟩
  | none => cases h

end Sys2Proof.Machine
end

