-- ==== Sys2Proof/Laws/Step.lean ====
section
/-! SUPPORT. Laws/Step.lean: what a step can do, said once. `SessionMove` lists every way a phase's step ends, `ExecMove` every way an
instruction does; later proofs take a move apart instead of unfolding the step rules. -/

namespace Sys2Proof.Machine

/-- Every way the step of the current phase, with read result r, ends in a next state (R242 to R276, R333). -/
inductive SessionMove (r : Bytes) (s : State) : State → Prop where
  | wait (h : s.phase = .idle ∨ s.phase = .awaitPassword ∨ s.phase = .cmdPrompt ∨ s.phase = .awaitCmdText) : SessionMove r s s
  | discEntry (hp : s.phase = .discEntry) : SessionMove r s ((s.send disconnectMsg).moveTo .identTx)
  | identTx (hp : s.phase = .identTx) : SessionMove r s ((s.send identMsg).moveTo .identRx)
  | overflow (S : Session) (hp : s.phase = .identRx ∨ s.phase = .respRx) (hs : s.session = some S)
      (ho : overflows s.cfg r = true) : SessionMove r s (raiseError .frameOverflow S (s.record (.rx r)))
  | baud (S : Session) (z : Byte) (hp : s.phase = .identRx) (hs : s.session = some S) (hz : r[4]? = some z) :
      SessionMove r s (((s.record (.rx r)).setSession { S with baud := some z }).moveTo .negTx)
  | identSilent (S : Session) (hp : s.phase = .identRx) (hs : s.session = some S) (hr : r = []) :
      SessionMove r s (((s.record (.rx r)).setSession { S with lastCause := some .transportTimeout }).moveTo .retry)
  | identShort (S : Session) (hp : s.phase = .identRx) (hs : s.session = some S) (hr : r ≠ []) (hz : r[4]? = none) :
      SessionMove r s (((s.record (.rx r)).setSession { S with lastCause := some .identReplyShort }).moveTo .retry)
  | negTx (S : Session) (z : Byte) (hp : s.phase = .negTx) (hs : s.session = some S) (hz : S.baud = some z) :
      SessionMove r s ((s.send (negotiationMsg s.cfg.negFraming z (modeDigit S))).moveTo .respRx)
  | challengeRefused (S : Session) (h : Bytes) (hp : s.phase = .respRx) (hs : s.session = some S) (hm : S.mode ≠ .program) :
      SessionMove r s (raiseError .unexpectedHead { S with head := h } (s.record (.rx r)))
  | challengePrompt (S : Session) (h : Bytes) (hp : s.phase = .respRx) (hs : s.session = some S) (hm : S.mode = .program)
      (hw : S.password = none) :
      SessionMove r s ((((s.record (.rx r)).setSession { S with head := h }).record (.prompt .password)).moveTo .awaitPassword)
  | challengeAgain (S : Session) (h : Bytes) (hp : s.phase = .respRx) (hs : s.session = some S) (hm : S.mode = .program)
      (hw : S.password ≠ none) (hr : S.retries < s.cfg.retryLimit) :
      SessionMove r s (((s.record (.rx r)).setSession
        { S with head := h, lastCause := some .repeatedChallenge, retries := S.retries + 1 }).moveTo .pwTx)
  | challengeExhausted (S : Session) (h : Bytes) (hp : s.phase = .respRx) (hs : s.session = some S) (hm : S.mode = .program)
      (hw : S.password ≠ none) (hr : ¬S.retries < s.cfg.retryLimit) :
      SessionMove r s (raiseError .retryExhausted { S with head := h, lastCause := some .repeatedChallenge }
        (s.record (.rx r)))
  | restart (S : Session) (h : Bytes) (k : ErrorKind) (hk : k = .protocolNak ∨ k = .transportTimeout) (hp : s.phase = .respRx)
      (hs : s.session = some S) :
      SessionMove r s (((s.record (.rx r)).setSession { S with head := h, lastCause := some k }).moveTo .retry)
  | ack (S : Session) (h : Bytes) (hp : s.phase = .respRx) (hs : s.session = some S) :
      SessionMove r s (((s.record (.rx r)).setSession { S with head := h }).moveTo .xferExit)
  | respRaise (S : Session) (h : Bytes) (k : ErrorKind) (hk : k = .unexpectedHead ∨ k = .checksumMismatch)
      (hp : s.phase = .respRx) (hs : s.session = some S) :
      SessionMove r s (raiseError k { S with head := h } (s.record (.rx r)))
  | stage (S : Session) (h b : Bytes) (hp : s.phase = .respRx) (hs : s.session = some S) :
      SessionMove r s (((s.record (.rx r)).setSession { S with head := h, pending := some b }).moveTo .data)
  | pwTx (S : Session) (pw : Bytes) (hp : s.phase = .pwTx) (hs : s.session = some S) (hw : S.password = some pw) :
      SessionMove r s ((s.send (passwordMsg pw)).moveTo .respRx)
  | malformed (S : Session) (b : Bytes) (hp : s.phase = .data) (hs : s.session = some S) (hb : S.pending = some b)
      (ha : applyFrame s.cfg b s.registry = none) : SessionMove r s (raiseError .malformedStatus S s)
  | publish (S : Session) (b : Bytes) (reg : List Entry) (hp : s.phase = .data) (hs : s.session = some S)
      (hb : S.pending = some b) (ha : applyFrame s.cfg b s.registry = some reg) :
      SessionMove r s (((((declareOnce S s).commit reg).publishAll).setSession
        { S with schemaDeclared := S.schemaDeclared || declaresSchema S, pending := none }).moveTo .xferExit)
  | askChoice (S : Session) (hp : s.phase = .xferExit) (hs : s.session = some S) (hc : commandMode S = true) :
      SessionMove r s ((s.record (.prompt .choice)).moveTo .cmdPrompt)
  | readEnds (S : Session) (hp : s.phase = .xferExit) (hs : s.session = some S) (hc : commandMode S = false) :
      SessionMove r s ((s.setSession { S with result := some .ok }).moveTo .done)
  | cmdTx (S : Session) (h : CmdHead) (t : Bytes) (hp : s.phase = .cmdTx) (hs : s.session = some S)
      (hh : S.cmdHead = some h) (ht : S.cmdBody = some t) :
      SessionMove r s (((s.send (commandMsg h t)).setSession { S with cmdHead := none, cmdBody := none }).moveTo .respRx)
  | discFinal (hp : s.phase = .discFinal) : SessionMove r s ((s.send disconnectMsg).moveTo .done)
  | again (S : Session) (hp : s.phase = .retry) (hs : s.session = some S) (hr : S.retries < s.cfg.retryLimit) :
      SessionMove r s ((s.setSession { S with retries := S.retries + 1, restarted := true }).moveTo .discEntry)
  | exhausted (S : Session) (hp : s.phase = .retry) (hs : s.session = some S) (hr : ¬S.retries < s.cfg.retryLimit) :
      SessionMove r s (raiseError .retryExhausted S s)
  | report (S : Session) (k : ErrorKind) (hp : s.phase = .error) (hs : s.session = some S) (hk : S.errKind = some k) :
      SessionMove r s (((s.record (.reportError k)).setSession { S with result := some (.abandoned k) }).moveTo .done)
  | finish (S : Session) (c : CycleResult) (hp : s.phase = .done) (hs : s.session = some S) (hc : S.result = some c) :
      SessionMove r s { s.record (.cycleDone c) with
        session := none, phase := .idle, daemonCycle := false
        counter := if s.daemonCycle then s.counter + 1 else s.counter }

theorem identRxStep_move {r : Bytes} {s t : State} (hp : s.phase = .identRx) (h : identRxStep r s = .next t) :
    SessionMove r s t := by
  obtain ⟨S, hs, h⟩ := onSession_next h
  dsimp only at h
  split at h
  · cases h; exact .overflow S (.inl hp) hs ‹_›
  · split at h
    · cases h; exact .baud S _ hp hs ‹_›
    · split at h
      · cases h; exact .identSilent S hp hs ‹_›
      · cases h; exact .identShort S hp hs ‹_› ‹_›

theorem challengeBranch_move {r h : Bytes} {s : State} {S : Session} (hp : s.phase = .respRx) (hs : s.session = some S) :
    SessionMove r s (challengeBranch { S with head := h } (s.record (.rx r))) := by
  unfold challengeBranch
  dsimp only
  split
  · exact .challengeRefused S h hp hs ‹_›
  · rename_i hm
    have hm := not_not.mp hm
    split
    · exact .challengePrompt S h hp hs hm ‹_›
    · split
      · exact .challengeAgain S h hp hs hm ‹_› ‹_›
      · exact .challengeExhausted S h hp hs hm ‹_› ‹_›

theorem respRxStep_move {r : Bytes} {s t : State} (hp : s.phase = .respRx) (h : respRxStep r s = .next t) :
    SessionMove r s t := by
  obtain ⟨S, hs, h⟩ := onSession_next h
  dsimp only at h
  split at h
  · cases h; exact .overflow S (.inr hp) hs ‹_›
  · cases h
    split
    · exact challengeBranch_move hp hs
    · exact .restart S _ _ (.inl rfl) hp hs
    · exact .restart S _ _ (.inr rfl) hp hs
    · exact .ack S _ hp hs
    · exact .respRaise S _ _ (.inl rfl) hp hs
    · split
      · exact .stage S _ _ hp hs
      · exact .respRaise S _ _ (.inr rfl) hp hs

theorem dataStep_move {r : Bytes} {s t : State} (hp : s.phase = .data) (h : dataStep s = .next t) : SessionMove r s t := by
  obtain ⟨S, hs, h⟩ := onSession_next h
  obtain ⟨b, hb, h⟩ := onField_next h
  split at h
  · cases h; exact .malformed S b hp hs hb ‹_›
  · cases h; exact .publish S b _ hp hs hb ‹_›

/-- A step of the current phase that answers a next state made one of the moves. -/
theorem internalStep_move {r : Bytes} {s t : State} (h : internalStep r s = .next t) : SessionMove r s t := by
  unfold internalStep at h
  split at h
  case h_1 hp => cases h; exact .wait (.inl hp)
  case h_2 hp => cases h; exact .discEntry hp
  case h_3 hp => cases h; exact .identTx hp
  case h_4 hp => exact identRxStep_move hp h
  case h_5 hp =>
    obtain ⟨S, hs, h⟩ := onSession_next h
    obtain ⟨z, hz, h⟩ := onField_next h
    cases h; exact .negTx S z hp hs hz
  case h_6 hp => exact respRxStep_move hp h
  case h_7 hp => cases h; exact .wait (.inr (.inl hp))
  case h_8 hp =>
    obtain ⟨S, hs, h⟩ := onSession_next h
    obtain ⟨pw, hw, h⟩ := onField_next h
    cases h; exact .pwTx S pw hp hs hw
  case h_9 hp => exact dataStep_move hp h
  case h_10 hp =>
    obtain ⟨S, hs, h⟩ := onSession_next h
    split at h
    · cases h; exact .askChoice S hp hs ‹_›
    · cases h; exact .readEnds S hp hs (by simpa using ‹¬commandMode S = true›)
  case h_11 hp => cases h; exact .wait (.inr (.inr (.inl hp)))
  case h_12 hp => cases h; exact .wait (.inr (.inr (.inr hp)))
  case h_13 hp =>
    obtain ⟨S, hs, h⟩ := onSession_next h
    obtain ⟨c, hc, h⟩ := onField_next h
    obtain ⟨b, hb, h⟩ := onField_next h
    cases h; exact .cmdTx S c b hp hs hc hb
  case h_14 hp => cases h; exact .discFinal hp
  case h_15 hp =>
    obtain ⟨S, hs, h⟩ := onSession_next h
    split at h
    · cases h; exact .again S hp hs ‹_›
    · cases h; exact .exhausted S hp hs ‹_›
  case h_16 hp =>
    obtain ⟨S, hs, h⟩ := onSession_next h
    obtain ⟨k, hk, h⟩ := onField_next h
    cases h; exact .report S k hp hs hk
  case h_17 hp =>
    obtain ⟨S, hs, h⟩ := onSession_next h
    obtain ⟨c, hc, h⟩ := onField_next h
    cases h; exact .finish S c hp hs hc

/-- Every way an instruction ends in a next state. -/
inductive ExecMove (s : State) : Instr → State → Prop where
  | answer (i : Instr) (o : Output) (hi : Terms.onlyAnswers i = true ∨ Terms.writesRegistry i = true)
      (hw : Terms.writesRegistry i = true → s.phase ≠ .idle) : ExecMove s i (s.answer o)
  | write (i : Instr) (reg : List Entry) (o : Output) (hi : (∃ k v, i = .regUpdate k v) ∨ ∃ b, i = .applyFrame b)
      (hp : s.phase ≠ .idle) (hl : regLayout reg = regLayout s.registry) : ExecMove s i ((s.commit reg).answer o)
  | session (i : Instr) (r : Bytes) (t : State) (hi : s.phase = .data ∨ s.phase = .done → i = .step)
      (h : SessionMove r s t) : ExecMove s i t
  | drawn (r : Bytes) (t : State) (hp : s.phase = .identRx ∨ s.phase = .respRx)
      (h : SessionMove r { s with draws := s.draws + 1 } t) : ExecMove s .step t
  | start (m : Mode) (hp : s.phase = .idle) :
      ExecMove s (.start m) (((s.record (.start m)).setSession (freshSession m)).moveTo .discEntry)
  | password (S : Session) (bs : Bytes) (hp : s.phase = .awaitPassword) (hs : s.session = some S) :
      ExecMove s (.input bs) (((s.record (.input bs)).setSession { S with password := some bs }).moveTo .pwTx)
  | text (S : Session) (bs : Bytes) (hp : s.phase = .awaitCmdText) (hs : s.session = some S) :
      ExecMove s (.input bs) (((s.record (.input bs)).setSession { S with cmdBody := some bs }).moveTo .cmdTx)
  | command (S : Session) (c : Choice) (h : CmdHead) (hp : s.phase = .cmdPrompt) (hs : s.session = some S) :
      ExecMove s (.choice c) ((((s.record (.choice c)).setSession { S with cmdHead := some h }).record
        (.prompt .commandText)).moveTo .awaitCmdText)
  | exit (S : Session) (hp : s.phase = .cmdPrompt) (hs : s.session = some S) :
      ExecMove s (.choice .exit) (((s.record (.choice .exit)).setSession { S with result := some .ok }).moveTo .discFinal)
  | cancel (S : Session) (hp : s.phase = .awaitPassword ∨ s.phase = .cmdPrompt ∨ s.phase = .awaitCmdText)
      (hs : s.session = some S) :
      ExecMove s .cancel (((s.record .cancel).setSession { S with result := some .cancelled }).moveTo .discFinal)

/-- A received row is the current phase's step with that read result. -/
theorem receive_move {r : Bytes} {s t : State} (h : receive r s = .next t) : SessionMove r s t := by
  unfold receive at h
  split at h
  · exact identRxStep_move ‹_› h
  · exact respRxStep_move ‹_› h
  · cases h

/-- A received row runs only where the phase reads. -/
theorem receive_phase {r : Bytes} {s t : State} {i : Instr} (h : receive r s = .next t) :
    s.phase = .data ∨ s.phase = .done → i = .step := by
  unfold receive at h
  split at h <;> simp_all

/-- A message row that is due is the current phase's step. -/
theorem whenDue_next {due : Session → Prop} [DecidablePred due] {rule : State → Result} {s t : State}
    (h : whenDue due rule s = .next t) : ∃ S, s.session = some S ∧ due S ∧ rule s = .next t := by
  obtain ⟨S, hs, h⟩ := onSession_next h
  split at h
  · exact ⟨S, hs, ‹_›, h⟩
  · cases h

/-- An instruction that answers a next state made one of the moves. -/
theorem exec_move {i : Instr} {s t : State} (h : exec i s = .next t) : ExecMove s i t := by
  cases i <;> simp only [exec] at h
  case disconnect =>
    unfold execDisconnect at h
    split at h
    · cases h; exact .session _ [] _ (by simp [*]) (.discEntry ‹_›)
    · cases h; exact .session _ [] _ (by simp [*]) (.discFinal ‹_›)
    · cases h
  case ident =>
    unfold execIdent at h
    split at h
    · cases h; exact .session _ [] _ (by simp [*]) (.identTx ‹_›)
    · cases h
  case optsel z y =>
    unfold execOptsel at h
    split at h
    · obtain ⟨S, -, -, h⟩ := whenDue_next h
      exact .session _ [] _ (by simp [*]) (internalStep_move (by simp [internalStep, *]))
    · cases h
  case optselEncoded z y =>
    unfold execOptselEncoded at h
    split at h
    · obtain ⟨S, -, -, h⟩ := whenDue_next h
      exact .session _ [] _ (by simp [*]) (internalStep_move (by simp [internalStep, *]))
    · cases h
  case password pw =>
    unfold execPassword at h
    split at h
    · obtain ⟨S, -, -, h⟩ := whenDue_next h
      exact .session _ [] _ (by simp [*]) (internalStep_move (by simp [internalStep, *]))
    · cases h
  case read t =>
    unfold execRead at h
    split at h
    · obtain ⟨S, -, -, h⟩ := whenDue_next h
      exact .session _ [] _ (by simp [*]) (internalStep_move (by simp [internalStep, *]))
    · cases h
  case write t =>
    unfold execWrite at h
    split at h
    · obtain ⟨S, -, -, h⟩ := whenDue_next h
      exact .session _ [] _ (by simp [*]) (internalStep_move (by simp [internalStep, *]))
    · cases h
  case rxIdentReply r => exact .session _ r _ (receive_phase h) (receive_move h)
  case rxP0 r => exact .session _ r _ (receive_phase h) (receive_move h)
  case rxNak r => exact .session _ r _ (receive_phase h) (receive_move h)
  case rxTimeout r => exact .session _ r _ (receive_phase h) (receive_move h)
  case rxAck r => exact .session _ r _ (receive_phase h) (receive_move h)
  case rxUnexpectedHead r => exact .session _ r _ (receive_phase h) (receive_move h)
  case rxDataValid r => exact .session _ r _ (receive_phase h) (receive_move h)
  case rxDataInvalid r => exact .session _ r _ (receive_phase h) (receive_move h)
  case encode hd b => cases h; exact .answer _ _ (by simp [Terms.onlyAnswers, Terms.writesRegistry]) (by simp [Terms.writesRegistry])
  case checksum bs => cases h; exact .answer _ _ (by simp [Terms.onlyAnswers, Terms.writesRegistry]) (by simp [Terms.writesRegistry])
  case decode bs => cases h; exact .answer _ _ (by simp [Terms.onlyAnswers, Terms.writesRegistry]) (by simp [Terms.writesRegistry])
  case statusParse text =>
    unfold execStatusParse at h
    split at h <;> (cases h; exact .answer _ _ (by simp [Terms.onlyAnswers, Terms.writesRegistry]) (by simp [Terms.writesRegistry]))
  case statusDecode w => cases h; exact .answer _ _ (by simp [Terms.onlyAnswers, Terms.writesRegistry]) (by simp [Terms.writesRegistry])
  case regUpdate k v =>
    obtain ⟨hp, h⟩ := duringCycle_next h
    cases h; exact .write _ _ _ (.inl ⟨k, v, rfl⟩) hp (by simp)
  case regSnapshot => cases h; exact .answer _ _ (by simp [Terms.onlyAnswers, Terms.writesRegistry]) (by simp [Terms.writesRegistry])
  case parseLine l => cases h; exact .answer _ _ (by simp [Terms.onlyAnswers, Terms.writesRegistry]) (by simp [Terms.writesRegistry])
  case parseBody b => cases h; exact .answer _ _ (by simp [Terms.onlyAnswers, Terms.writesRegistry]) (by simp [Terms.writesRegistry])
  case applyFrame b =>
    obtain ⟨hp, h⟩ := duringCycle_next h
    split at h
    · cases h; exact .write _ _ _ (.inr ⟨b, rfl⟩) hp (applyFrame_layout ‹_›)
    · cases h; exact .answer _ _ (by simp [Terms.onlyAnswers, Terms.writesRegistry]) (fun _ => hp)
  case classify f => cases h; exact .answer _ _ (by simp [Terms.onlyAnswers, Terms.writesRegistry]) (by simp [Terms.writesRegistry])
  case step =>
    unfold execStep at h
    split at h
    · rename_i hr
      refine .drawn _ _ ?_ (internalStep_move h)
      revert hr
      cases s.phase <;> simp [Phase.reads]
    · exact .session _ [] _ (fun _ => rfl) (internalStep_move h)
  case start m =>
    unfold execStart at h
    split at h
    · cases h; exact .start m ‹_›
    · cases h
  case input bs =>
    unfold execInput at h
    split at h
    · obtain ⟨S, hs, h⟩ := onSession_next h
      cases h; exact .password S bs ‹_› hs
    · obtain ⟨S, hs, h⟩ := onSession_next h
      cases h; exact .text S bs ‹_› hs
    · cases h
  case choice c =>
    unfold execChoice at h
    split at h
    · rename_i hp
      cases c <;> (obtain ⟨S, hs, h⟩ := onSession_next h; cases h)
      · exact .command S .read .r1 hp hs
      · exact .command S .write .w1 hp hs
      · exact .exit S hp hs
    · cases h
  case cancel =>
    unfold execCancel at h
    split at h
    · obtain ⟨S, hs, h⟩ := onSession_next h
      cases h; exact .cancel S (.inl ‹_›) hs
    · obtain ⟨S, hs, h⟩ := onSession_next h
      cases h; exact .cancel S (.inr (.inl ‹_›)) hs
    · obtain ⟨S, hs, h⟩ := onSession_next h
      cases h; exact .cancel S (.inr (.inr ‹_›)) hs
    · cases h
  case error =>
    unfold execError at h
    split at h
    · exact .session _ [] _ (by simp [*]) (internalStep_move (by simp [internalStep, *]))
    · cases h

/-- A received row is the current phase's step with that read result, in the two phases that read; elsewhere it is refused. -/
theorem receive_eq (r : Bytes) (s : State) :
    receive r s =
      if s.phase = .identRx ∨ s.phase = .respRx then internalStep r s else .refused .readNotDue := by
  unfold receive internalStep
  cases s.phase <;> simp

/-- A read result within `MAX_FRAME_LEN` does not overflow (R245). -/
theorem overflows_eq_false {p : Params} {r : Bytes} (h : ∀ n, p.maxFrameLen = some n → r.length ≤ n) :
    overflows p r = false := by
  unfold overflows
  split
  · simpa using h _ ‹_›
  · rfl

/-- A step that answers a next state ran the instruction of a command, with the commands left after it, or, with no command
pending, the block's own instruction with the cycle claimed where the sequencer is due. -/
theorem step_exec {s t : State} (h : Machine.step s = .next t) :
    (∃ i cs, s.commands ≠ [] ∧ exec i { s with commands := cs } = .next t) ∨
      (s.commands = [] ∧ exec (ownInstr s) (claimCycle s) = .next t) := by
  unfold Machine.step at h
  split at h
  · exact .inr ⟨‹_›, h⟩
  · split at h
    · exact .inl ⟨_, _, by simp [*], h⟩
    · cases h

end Sys2Proof.Machine
end

