-- ==== Sys2Proof/Tests/Slice0.lean ====
section
/-! SUPPORT. Tests/Slice0.lean: the checks on instructions, decoding from words written out from the spec's encodings, the spec's own
vectors (95_test_vectors.md; each test names its row), and a witness for the hypotheses of each obligation. -/

namespace Sys2Proof.Tests

open Sys2Proof Sys2Proof.Machine Sys2Proof.Terms

/-! ## Small states -/

/-- The reset state in phase `p` with the session record `S`. -/
def inPhase (p : Phase) (S : Session) : State := { State.reset with phase := p, session := some S }

/-- IDLE with counter c, the host stopping the loop at counter n. -/
def stoppedAt (n c : Nat) : State :=
  { State.reset with cfg := { defaultParams with loopStop := some n }, counter := c }

/-- A fresh record of each mode. -/
def limited : Session := freshSession .limitedRead
def full : Session := freshSession .fullRead
def prog : Session := freshSession .program

def phaseAfter : Result → Option Phase
  | .next t => some t.phase
  | .fault _ => none
  | .refused _ => none

def traceAfter : Result → List Event
  | .next t => t.trace
  | .fault _ => []
  | .refused _ => []

def recordAfter : Result → Option Session
  | .next t => t.session
  | .fault _ => none
  | .refused _ => none

def outputAfter : Result → Option Output
  | .next t => t.output
  | .fault _ => none
  | .refused _ => none

def registryAfter : Result → List Entry
  | .next t => t.registry
  | .fault _ => []
  | .refused _ => []

def daemonCycleAfter : Result → Option Bool
  | .next t => some t.daemonCycle
  | .fault _ => none
  | .refused _ => none

def counterAfter : Result → Option Nat
  | .next t => some t.counter
  | .fault _ => none
  | .refused _ => none

/-- `"KEY_A"`, `"STAT_"` and `"123"`. -/
def keyA : Bytes := [0x4B, 0x45, 0x59, 0x5F, 0x41]
def stat : Bytes := [0x53, 0x54, 0x41, 0x54, 0x5F]
def text123 : Bytes := [0x31, 0x32, 0x33]

/-- The `P0` frame of program P3, and the ASCII of the identification reply of L3. -/
def frameP0 : Bytes := [0x01, 0x50, 0x30, 0x02, 0x28, 0x30, 0x30, 0x30, 0x30, 0x30, 0x30, 0x30, 0x30, 0x29, 0x03, 0x56]
def identReply : Bytes :=
  [0x2F, 0x45, 0x4B, 0x54, 0x35, 0x43, 0x45, 0x31, 0x30, 0x32, 0x4D, 0x76, 0x30, 0x31, 0x0D, 0x0A]

/-- Bodies: `"STAT_(0X12)\r\n"` (P7), `"KEY_A(123)"`, and the body of L2.7, `"STAT_(00000C00)\r\nKEY_A(5)\r\n"`. -/
def badBody : Bytes := stat ++ [0x28, 0x30, 0x58, 0x31, 0x32, 0x29, 0x0D, 0x0A]
def goodBody : Bytes := keyA ++ [0x28] ++ text123 ++ [0x29]
def bodyL27 : Bytes :=
  stat ++ [0x28, 0x30, 0x30, 0x30, 0x30, 0x30, 0x43, 0x30, 0x30, 0x29, 0x0D, 0x0A] ++ keyA ++ [0x28, 0x35, 0x29, 0x0D, 0x0A]

/-! ## WellFormed: one ill-formed term for each check, refused by the check and by the decoder -/

theorem test_wf_mode_digit : (Instr.optsel 0x35 0x32).wf = false ∧ (Instr.optselEncoded 0x35 0x37).wf = false ∧
    decodeTx [0x06, 0x30, 0x35, 0x32, 0x0D, 0x0A] = .error .wrongModeDigit := ⟨rfl, rfl, rfl⟩

theorem test_wf_short_ident_reply : (Instr.rxIdentReply [0x2F, 0x45, 0x4B, 0x54]).wf = false := rfl

theorem test_wf_class : (Instr.rxP0 [0x15]).wf = false ∧ (Instr.rxNak [0x06]).wf = false ∧ (Instr.rxTimeout [0x41]).wf = false ∧
    (Instr.rxAck []).wf = false ∧ (Instr.rxUnexpectedHead [0x41]).wf = false := by decide

theorem test_wf_data_checksum : (Instr.rxDataValid [0x02, 0x02, 0x41, 0x03, 0x00]).wf = false ∧
    (Instr.rxDataInvalid [0x02, 0xFF, 0x03, 0x02]).wf = false ∧ (Instr.rxDataValid [0x15]).wf = false ∧
    (Instr.rxDataInvalid []).wf = false := by decide

/-- A line that holds an LF, `"K()"` with an LF before it, is no ill-formed operand: the operation runs, its answer free (log 17). -/
theorem test_line_with_lf : decodeCommand false (.op (.parseLine [0x0A, 0x4B, 0x28, 0x29])) = .ok (.parseLine [0x0A, 0x4B, 0x28, 0x29]) ∧
    outputAfter (step { State.reset with commands := [.op (.parseLine [0x0A, 0x4B, 0x28, 0x29])] }) =
      some (.line (Config.freeLine [0x0A, 0x4B, 0x28, 0x29])) := ⟨rfl, rfl⟩

/-- A wire row is no operation, a wrong check byte and an STX before an empty text are rejected by name. -/
theorem test_decode_rejections : decodeCommand false (.op (.rxNak [0x15])) = .error .notAnOperation ∧
    decodeTx [0x01, 0x52, 0x31, 0x03, 0x07] = .error .wrongCheckByte ∧
    decodeTx [0x01, 0x52, 0x31, 0x02, 0x03, 0x08] = .error .stxBeforeEmptyBody ∧
    decodeTx [0x41, 0x42] = .error .notATransmission := ⟨rfl, rfl, rfl, rfl⟩

/-! ## Decoding: words written out from the encodings of opcode_table.json and 30_encoding.md -/

theorem test_decode_fixed : decodeTx [0x01, 0x42, 0x30, 0x03, 0x75] = .ok .disconnect ∧
    decodeTx [0x2F, 0x3F, 0x21, 0x0D, 0x0A] = .ok .ident := ⟨rfl, rfl⟩

/-- `06 30 ZZ YY 0D 0A`, and in a frame with check byte `(06+30+35+31+0D+0A+03) mod 80 = 36`. -/
theorem test_decode_optsel : decodeTx [0x06, 0x30, 0x35, 0x31, 0x0D, 0x0A] = .ok (.optsel 0x35 0x31) ∧
    decodeTx [0x02, 0x06, 0x30, 0x35, 0x31, 0x0D, 0x0A, 0x03, 0x36] = .ok (.optselEncoded 0x35 0x31) := ⟨rfl, rfl⟩

/-- L2.1: P1 with `"()"`, R1 with `"ET0PE()"`, W1 with `"TIME_(12:00:00)"`, whose check byte equals ETX. -/
theorem test_decode_frames : decodeTx [0x01, 0x50, 0x31, 0x02, 0x28, 0x29, 0x03, 0x57] = .ok (.password []) ∧
    decodeTx [0x01, 0x52, 0x31, 0x02, 0x45, 0x54, 0x30, 0x50, 0x45, 0x28, 0x29, 0x03, 0x37] =
      .ok (.read [0x45, 0x54, 0x30, 0x50, 0x45, 0x28, 0x29]) ∧
    decodeTx [0x01, 0x57, 0x31, 0x02, 0x54, 0x49, 0x4D, 0x45, 0x5F, 0x28, 0x31, 0x32, 0x3A, 0x30, 0x30, 0x3A, 0x30, 0x30, 0x29,
      0x03, 0x03] =
      .ok (.write [0x54, 0x49, 0x4D, 0x45, 0x5F, 0x28, 0x31, 0x32, 0x3A, 0x30, 0x30, 0x3A, 0x30, 0x30, 0x29]) :=
  ⟨rfl, rfl, rfl⟩

/-- L2.3: read results of each class, and the identification reply of L3. -/
theorem test_decode_received : decodeRx true identReply = .rxIdentReply identReply ∧ decodeRx false frameP0 = .rxP0 frameP0 ∧
    decodeRx false [0x02, 0x15, 0x03, 0x18] = .rxNak [0x02, 0x15, 0x03, 0x18] ∧
    decodeRx false [0x06, 0x15] = .rxTimeout [0x06, 0x15] ∧
    decodeRx false [0x02, 0x06, 0x03, 0x09] = .rxAck [0x02, 0x06, 0x03, 0x09] ∧
    decodeRx false [0x02, 0x41, 0x01, 0x42, 0x03, 0x00] = .rxUnexpectedHead [0x02, 0x41, 0x01, 0x42, 0x03, 0x00] ∧
    decodeRx false [0x01, 0x42, 0x30, 0x02, 0x78, 0x03, 0x6F] = .rxDataValid [0x01, 0x42, 0x30, 0x02, 0x78, 0x03, 0x6F] ∧
    decodeRx false [0x02, 0x02, 0x41, 0x03, 0x00] = .rxDataInvalid [0x02, 0x02, 0x41, 0x03, 0x00] :=
  ⟨rfl, rfl, rfl, rfl, rfl, rfl, rfl, rfl⟩

/-- An operation has no word: its tagged value decodes to itself (R121, D2). -/
theorem test_decode_codec_operations : decodeCommand false (.op (.encode [0x48] [])) = .ok (.encode [0x48] []) ∧
    decodeCommand false (.op (.checksum [0x03])) = .ok (.checksum [0x03]) ∧
    decodeCommand false (.op (.decode [0x15])) = .ok (.decode [0x15]) ∧
    decodeCommand false (.op (.classify ⟨[], [0x15], true⟩)) = .ok (.classify ⟨[], [0x15], true⟩) := ⟨rfl, rfl, rfl, rfl⟩

theorem test_decode_data_operations : decodeCommand false (.op (.statusParse [0x47])) = .ok (.statusParse [0x47]) ∧
    decodeCommand false (.op (.statusDecode 7)) = .ok (.statusDecode 7) ∧
    decodeCommand false (.op (.regUpdate keyA text123)) = .ok (.regUpdate keyA text123) ∧
    decodeCommand false (.op .regSnapshot) = .ok .regSnapshot ∧
    decodeCommand false (.op (.parseLine keyA)) = .ok (.parseLine keyA) ∧
    decodeCommand false (.op (.parseBody [0x0A])) = .ok (.parseBody [0x0A]) ∧
    decodeCommand false (.op (.applyFrame goodBody)) = .ok (.applyFrame goodBody) := ⟨rfl, rfl, rfl, rfl, rfl, rfl, rfl⟩

theorem test_decode_session_operations : decodeCommand false (.op .step) = .ok .step ∧
    decodeCommand false (.op (.start .program)) = .ok (.start .program) ∧
    decodeCommand false (.op (.input [])) = .ok (.input []) ∧ decodeCommand false (.op (.choice .exit)) = .ok (.choice .exit) ∧
    decodeCommand false (.op .cancel) = .ok .cancel ∧ decodeCommand false (.op .error) = .ok .error :=
  ⟨rfl, rfl, rfl, rfl, rfl, rfl⟩

/-! ## A table word placed as the next instruction runs first (log 6); the first byte is bits 7..0 -/

theorem test_fetch_disconnect : decodeTableWord 40 0x7503304201 = some .disconnect ∧
    phaseAfter (step (State.reset.withFetchWord 40 0x7503304201)) = some .identTx := by decide

theorem test_fetch_ident : phaseAfter (step (State.reset.withFetchWord 40 0x0A0D213F2F)) = some .identRx := by decide

theorem test_fetch_optsel : traceAfter (step (State.reset.withFetchWord 48 0x0A0D36353006)) =
    [.tx [0x06, 0x30, 0x35, 0x36, 0x0D, 0x0A]] := by decide

theorem test_fetch_optsel_encoded : phaseAfter (step (State.reset.withFetchWord 72 0x36030A0D3135300602)) = some .respRx := by
  decide

theorem test_fetch_frames : phaseAfter (step (State.reset.withFetchWord 64 0x5703292802315001)) = some .respRx ∧
    phaseAfter (step (State.reset.withFetchWord 40 0x0603315201)) = some .respRx ∧
    phaseAfter (step (State.reset.withFetchWord 40 0x0B03315701)) = some .respRx := by decide

theorem test_fetch_received : phaseAfter (step (State.reset.withFetchWord 8 0x15)) = some .retry ∧
    phaseAfter (step (State.reset.withFetchWord 8 0x06)) = some .xferExit ∧
    phaseAfter (step (State.reset.withFetchWord 0 0)) = some .retry ∧
    phaseAfter (step (State.reset.withFetchWord 128 0x0A0D3130764D323031454335544B452F)) = some .negTx := by decide

/-! ## The codec (L2.1, L2.2, L2.3) -/

theorem test_encode_marker_inside : encodeFrame [0x41, 0x02, 0x42] [] = [0x01, 0x41, 0x02, 0x42, 0x03, 0x08] := by decide

theorem test_encode_empty : encodeFrame [] [] = [0x03, 0x00] ∧
    encodeFrame [0x41, 0x42] [0x43, 0x44] = [0x01, 0x41, 0x42, 0x02, 0x43, 0x44, 0x03, 0x0F] := by decide

theorem test_checksum_later_markers_count : checksum [0x01, 0x41, 0x02, 0x42, 0x01, 0x43, 0x03] = 0x4C := by decide

theorem test_checksum_early_etx_skipped : checksum [0x41, 0x03, 0x01, 0x42, 0x30, 0x03] = 0x75 ∧
    checksum [0x02, 0xFF, 0x03] = 0x02 := by decide

theorem test_decode_reentered_regions : decodeFrame [0x01, 0x41, 0x02, 0x42, 0x01, 0x43, 0x03, 0x00] =
    { head := [0x41, 0x43], body := [0x42], checksumValid := false } := by decide

theorem test_decode_missing_etx : decodeFrame [0x01, 0x42, 0x30, 0x00, 0x00] =
    { head := [0x42, 0x30, 0x00], body := [], checksumValid := false } := by decide

theorem test_classify_body_before_head : classify { head := [0x58, 0x59], body := [0x15], checksumValid := false } = .nak := by
  decide

theorem test_classify_p0_first : classify { head := [0x50, 0x30], body := [0x15], checksumValid := false } = .passwordChallenge := by
  decide

/-! ## Status and registry (L2.4 to L2.7) -/

theorem test_status_parse_wraps :
    statusParse [0x31, 0x46, 0x46, 0x46, 0x46, 0x46, 0x46, 0x46, 0x46] = some 0xFFFFFFFF := by decide

theorem test_status_parse_malformed : statusParse [] = none ∧ statusParse [0x30, 0x58, 0x31, 0x32] = none ∧
    statusParse [0x20, 0x31, 0x32] = none := by decide

theorem test_status_decode_example : (statusDecode 0x03000002).map Prod.snd =
    [2, 0, 1, 0, 1, 0, 0, 0, 0, 0, 0, 0, 0, 0, 0, 0, 1, 1, 0, 0, 0, 1] := by decide

theorem test_status_decode_bits : (statusDecode 0x00370200).map Prod.snd =
    [0, 0, 1, 0, 1, 0, 1, 0, 0, 0, 0, 1, 1, 0, 1, 1, 0, 0, 0, 0, 0, 1] := by decide

theorem test_reg_update : outputAfter (exec (.regUpdate keyA [0x35]) (inPhase .respRx full)) = some (.bool true) ∧
    regRead keyA (registryAfter (exec (.regUpdate keyA [0x35]) (inPhase .respRx full))) = some [0x35] := by decide

/-- Keys are compared byte for byte: `"key_a"` is unknown. -/
theorem test_reg_update_unknown :
    outputAfter (exec (.regUpdate [0x6B, 0x65, 0x79, 0x5F, 0x61] [0x36]) (inPhase .respRx full)) = some (.bool false) := by
  decide

/-- Between cycles the registry is touched only by starting the next one (R85). -/
theorem test_registry_between_cycles :
    exec (.regUpdate keyA [0x35]) State.reset = .refused .registryBetweenCycles ∧
    exec (.applyFrame goodBody) State.reset = .refused .registryBetweenCycles := ⟨rfl, rfl⟩

theorem test_reg_snapshot : outputAfter (exec .regSnapshot { State.reset with registry := [⟨keyA, .text, []⟩] }) =
    some (.entries [(keyA, .text, [])]) := by decide

theorem test_parse_line_nested : parseLine [0x4B, 0x28, 0x61, 0x28, 0x62, 0x29, 0x29] =
    some ([0x4B], [0x61, 0x28, 0x62, 0x29]) := by decide

theorem test_parse_line_one_cr : parseLine [0x4B, 0x28, 0x29, 0x0D] = some ([0x4B], []) ∧
    parseLine [0x4B, 0x28, 0x29, 0x0D, 0x0D] = none ∧ parseLine [0x4B, 0x28] = none ∧ parseLine [0x28, 0x76, 0x29] = none := by
  decide

/-- `"A(1)\nB(2)\n\nA(3)"`. -/
theorem test_parse_body : parseBody
    [0x41, 0x28, 0x31, 0x29, 0x0A, 0x42, 0x28, 0x32, 0x29, 0x0A, 0x0A, 0x41, 0x28, 0x33, 0x29] =
    [([0x41], [0x31]), ([0x42], [0x32]), ([0x41], [0x33])] := by decide

theorem test_apply_frame_status : (registryAfter (exec (.applyFrame bodyL27) (inPhase .respRx full))).map Entry.value =
    [[0x35], [], [0x30, 0x30, 0x30, 0x30, 0x30, 0x43, 0x30, 0x30], [0x30], [0x30], [0x31], [0x30], [0x31], [0x30], [0x30], [0x31],
      [0x31], [0x30], [0x30], [0x30], [0x30], [0x30], [0x30], [0x30], [0x30], [0x30], [0x30], [0x30], [0x30], [0x30]] := by
  decide

theorem test_apply_frame_malformed :
    outputAfter (exec (.applyFrame badBody) (inPhase .respRx full)) = some .malformedStatus ∧
    registryAfter (exec (.applyFrame badBody) (inPhase .respRx full)) = State.reset.registry := by decide

/-! ## Session steps (L2.9, L3) -/

theorem test_start_program : recordAfter (exec (.start .program) State.reset) = some prog ∧ prog.readFlag = 0x31 := by decide

theorem test_step_disc_entry : traceAfter (exec .step (inPhase .discEntry full)) = [.tx [0x01, 0x42, 0x30, 0x03, 0x75]] := by
  decide

theorem test_ident_reply : recordAfter (exec (.rxIdentReply identReply) (inPhase .identRx full)) =
    some { full with baud := some 0x35 } := by decide

theorem test_optsel_restarted :
    traceAfter (exec .step (inPhase .negTx { limited with baud := some 0x35, restarted := true })) =
      [.tx [0x06, 0x30, 0x35, 0x30, 0x0D, 0x0A]] := by decide

theorem test_p0_in_read_session : recordAfter (exec (.rxP0 frameP0) (inPhase .respRx full)) =
    some { full with head := [0x50, 0x30], errKind := some .unexpectedHead } := by decide

theorem test_p0_charges_budget :
    (recordAfter (exec (.rxP0 frameP0) (inPhase .respRx { prog with password := some [] }))).map Session.retries = some 1 := by
  decide

theorem test_nak_restarts : phaseAfter (exec (.rxNak [0x15]) (inPhase .respRx full)) = some .retry := by decide

theorem test_ack_in_read_session : phaseAfter (exec (.rxAck [0x06]) (inPhase .respRx full)) = some .xferExit ∧
    recordAfter (exec .step (inPhase .xferExit full)) = some { full with result := some .ok } := by decide

theorem test_unexpected_head :
    phaseAfter (exec (.rxUnexpectedHead [0x01, 0x58, 0x59, 0x02, 0x28, 0x31, 0x29, 0x03, 0x38]) (inPhase .respRx full)) =
      some .error := by decide

/-- P4: D2 with its last byte changed. -/
theorem test_checksum_mismatch :
    (recordAfter (exec (.rxDataInvalid [0x02, 0x4B, 0x45, 0x59, 0x5F, 0x41, 0x28, 0x37, 0x37, 0x29, 0x0D, 0x0A, 0x03, 0x63])
      (inPhase .respRx full))).bind Session.errKind = some .checksumMismatch := by decide

theorem test_data_step_publishes_all :
    (traceAfter (exec .step (inPhase .data { full with pending := some goodBody }))).length = 26 := by decide

theorem test_write_empty_text :
    traceAfter (exec (.write []) (inPhase .cmdTx { prog with cmdHead := some .w1, cmdBody := some [] })) =
      [.tx [0x01, 0x57, 0x31, 0x03, 0x0B]] := by decide

theorem test_password_frame :
    traceAfter (exec .step (inPhase .pwTx { prog with password := some [0x37, 0x37, 0x37, 0x37, 0x37, 0x37] })) =
      [.tx [0x01, 0x50, 0x31, 0x02, 0x28, 0x37, 0x37, 0x37, 0x37, 0x37, 0x37, 0x29, 0x03, 0x21]] := by decide

theorem test_retry_limit_reached : phaseAfter (exec .step (inPhase .retry { full with retries := 3 })) = some .error := by decide

theorem test_cancel_at_password : phaseAfter (exec .cancel (inPhase .awaitPassword prog)) = some .discFinal ∧
    exec (.choice .read) (inPhase .awaitPassword prog) = .refused .answerNotExpected := ⟨rfl, rfl⟩

theorem test_start_while_active : exec (.start .fullRead) (inPhase .data full) = .refused .startWhileActive := rfl

theorem test_duplicate_schema : boot { defaultParams with schema := [⟨keyA, .text, []⟩, ⟨keyA, .value, []⟩] } =
    .refused .duplicateSchemaKey := rfl

/-- L2.8: the mode of daemon cycles 4 and 5. -/
theorem test_cadence : daemonMode 4 = .limitedRead ∧ daemonMode 5 = .fullRead := ⟨rfl, rfl⟩

/-- The sequencer's cycle is a daemon cycle; a START given by a command, even of a Program cycle, is not (R311, R312, R356). -/
theorem test_daemon_start : daemonCycleAfter (step { State.reset with counter := 1 }) = some true ∧
    traceAfter (step { State.reset with counter := 1 }) = [.start .limitedRead] ∧
    daemonCycleAfter (step { State.reset with commands := [.op (.start .program)] }) = some false := by decide

/-- The host stops the loop after the first daemon cycle: the cycle runs, and then the block waits in IDLE (R319). -/
theorem test_loop_stop : traceAfter (step (stoppedAt 1 0)) = [.start .fullRead] ∧ step (stoppedAt 1 1) = .next (stoppedAt 1 1) :=
  ⟨rfl, rfl⟩

/-- Only a daemon cycle advances the counter, and an abandoned one too (R317). -/
theorem test_counter : counterAfter (exec .step { inPhase .done { full with result := some (.abandoned .checksumMismatch) } with
      daemonCycle := true }) = some 1 ∧
    counterAfter (exec .step (inPhase .done { full with result := some .ok })) = some 0 := by decide

/-! ## Witnesses: concrete states and operands that meet the hypotheses of each obligation, clause by clause -/

theorem exampleSchema_unique : keysUnique exampleSchema := by decide

/-- A fresh session is coherent in every phase that needs no field staged. -/
theorem freshCoherent {p : Phase} (m : Mode) (hp : stagedAt p (freshSession m)) (h : p ≠ .idle) :
    (inPhase p (freshSession m)).Coherent := by
  refine ⟨by simp [inPhase, h], rfl, exampleSchema_unique, ?_, by simp [inPhase, State.reset, State.resetWith],
    by simp [inPhase, State.reset, State.resetWith], by simp [inPhase, State.reset, State.resetWith]⟩
  rintro S ⟨⟩
  constructor <;> simp [freshSession, inPhase] at *
  exact hp

theorem reset_coherent : State.reset.Coherent :=
  ⟨by simp [State.reset, State.resetWith], rfl, exampleSchema_unique, by simp [State.reset, State.resetWith],
    by simp [State.reset, State.resetWith], by simp [State.reset, State.resetWith], by simp [State.reset, State.resetWith]⟩

/-- A daemon cycle with counter n in phase `p`. -/
def daemonAt (n : Nat) (p : Phase) (S : Session) : State := { inPhase p S with counter := n, daemonCycle := true }

/-- The record of the daemon cycle with counter n, with a baud character and an empty body staged. -/
def daemonRecord (n : Nat) : Session := { freshSession (daemonMode n) with baud := some 0x35, pending := some [] }

theorem daemonCoherent {p : Phase} (n : Nat) (h : p = .negTx ∨ p = .data) : (daemonAt n p (daemonRecord n)).Coherent := by
  refine ⟨?_, rfl, exampleSchema_unique, ?_, fun _ => ?_, fun _ => rfl, ?_⟩
  · rcases h with rfl | rfl <;> simp [daemonAt, inPhase]
  · rintro S ⟨⟩
    rcases h with rfl | rfl <;> constructor <;> simp [daemonRecord, freshSession, daemonAt, inPhase, stagedAt]
  · rcases h with rfl | rfl <;> simp [daemonAt, inPhase]
  · rintro - S ⟨⟩
    rfl

theorem witness_stepRunsDecodedInstruction :
    (∃ s : State, ∃ c cs i, s.commands = c :: cs ∧ decodeCommand (decide (s.phase = .identRx)) c = .ok i) ∧
    (∃ s : State, ∃ c cs e, s.commands = c :: cs ∧ decodeCommand (decide (s.phase = .identRx)) c = .error e) ∧
    (State.reset.commands = [] ∧ State.reset.phase = .idle ∧ State.reset.cfg.regime = .daemon ∧
      (∀ n, State.reset.cfg.loopStop = some n → State.reset.counter < n) ∧
      ∀ n, (stoppedAt 2 1).cfg.loopStop = some n → (stoppedAt 2 1).counter < n) ∧
    ((inPhase .data full).commands = [] ∧ (inPhase .data full).phase ≠ .idle) ∧
    ((stoppedAt 2 2).commands = [] ∧ (stoppedAt 2 2).phase = .idle ∧
      ∃ n, (stoppedAt 2 2).cfg.loopStop = some n ∧ n ≤ (stoppedAt 2 2).counter) :=
  ⟨⟨{ State.reset with commands := [.op .cancel] }, _, _, _, rfl, rfl⟩,
    ⟨{ State.reset with commands := [.tx []] }, _, _, .notATransmission, rfl, rfl⟩,
    ⟨rfl, rfl, rfl, (by intro n h; cases h), by intro n h; cases h; decide⟩, by decide, rfl, rfl, _, rfl, by decide⟩

theorem witness_decodeOfEncodeIsIdentity :
    ((Instr.rxNak [0x15]).wf = true ∧ ∀ r, encode (.rxNak [0x15]) = .rx r → false = (Instr.rxNak [0x15]).identifying) ∧
    ((Instr.rxIdentReply identReply).wf = true ∧
      ∀ r, encode (.rxIdentReply identReply) = .rx r → true = (Instr.rxIdentReply identReply).identifying) :=
  ⟨⟨rfl, fun _ _ => rfl⟩, ⟨rfl, fun _ _ => rfl⟩⟩

theorem witness_decodedTransmission : decodeTx [0x01, 0x52, 0x31, 0x03, 0x06] = .ok (.read []) := rfl

/-- The boundary of the identification reply: five bytes are one, four are not. -/
theorem witness_everyReadResultIsOneRow :
    (Instr.rxIdentReply [1, 2, 3, 4, 5] ∈ rxRows [1, 2, 3, 4, 5] ∧ (Instr.rxIdentReply [1, 2, 3, 4, 5]).wf = true ∧
      (Instr.rxIdentReply [1, 2, 3, 4, 5]).identifying = (true && decide (5 ≤ ([1, 2, 3, 4, 5] : Bytes).length))) ∧
    (Instr.rxTimeout [0x41, 0x42, 0x43, 0x44] ∈ rxRows [0x41, 0x42, 0x43, 0x44] ∧
      (Instr.rxTimeout [0x41, 0x42, 0x43, 0x44]).wf = true ∧
      (Instr.rxTimeout [0x41, 0x42, 0x43, 0x44]).identifying =
        (true && decide (5 ≤ ([0x41, 0x42, 0x43, 0x44] : Bytes).length))) := by decide

theorem witness_checksum : (∃ c ∈ ([0x41, 0x02] : Bytes), c = 0x01 ∨ c = 0x02) ∧
    ¬∃ c ∈ ([0x41, 0x03] : Bytes), c = 0x01 ∨ c = 0x02 := by decide

theorem witness_encodeForms : ([0x42] : Bytes) ≠ [] ∧ ([] : Bytes) = [] := by decide

theorem witness_decodeUndoesEncode : MarkerFree [0x42, 0x30] ∧ MarkerFree [0x00, 0x04, 0xFF] ∧ MarkerFree [] := by
  unfold MarkerFree; decide

theorem witness_decodeReadsRegions : ([0x01] : Bytes) ≠ [] := by decide

theorem witness_shortInput : ([] : Bytes).length ≤ 1 ∧ ([0x41] : Bytes).length ≤ 1 := by decide

theorem witness_lastByteCorruption : ([0x01, 0x42, 0x30, 0x03] : Bytes) ≠ [] ∧
    (decodeFrame ([0x01, 0x42, 0x30, 0x03] ++ [0x75])).checksumValid = true ∧ (0xF5 : Byte) ≠ 0x75 := by decide

/-- `'0'`, `'9'`, `'A'`, `'F'`, `'a'`, `'f'` are digits; the bytes beside them are not, and the empty text is no number. -/
theorem witness_statusParse : HexText [0x30, 0x39, 0x41, 0x46, 0x61, 0x66] ∧ ¬HexText [] ∧ ¬HexText [0x2F] ∧ ¬HexText [0x3A] ∧
    ¬HexText [0x40] ∧ ¬HexText [0x47] ∧ ¬HexText [0x60] ∧ ¬HexText [0x67] := by unfold HexText; decide

theorem witness_regUpdate : (inPhase .respRx full).phase ≠ .idle ∧ keyA ∈ (inPhase .respRx full).registry.map Entry.key ∧
    text123 ∉ (inPhase .respRx full).registry.map Entry.key ∧ State.reset.phase = .idle := by decide

/-- A line of the rule, and one byte that makes a line none. -/
theorem witness_parseLine : (0x0A : Byte) ∉ lineText keyA text123 ++ [0x0D] ∧ ¬(0x0A : Byte) ∉ ([0x0A] : Bytes) ∧
    ∃ s : State, exec (.parseLine (lineText keyA text123 ++ [0x0D])) s =
      .next { s with output := some (.line (some (keyA, text123))) } := ⟨by decide, by decide, State.reset, rfl⟩

theorem witness_parseBody : (∀ l ∈ [goodBody, ([] : Bytes)], (0x0A : Byte) ∉ l) ∧ [goodBody, ([] : Bytes)] ≠ [] := by decide

/-- `STAT_(0X12)` is malformed; a body without a `STAT_` line is not. -/
theorem malformed_badBody : StatMalformed badBody :=
  ⟨[0x30, 0x58, 0x31, 0x32], by decide, by unfold HexText; decide⟩

theorem wellformed_goodBody : ¬StatMalformed goodBody := by
  rintro ⟨v, h, -⟩
  rw [show parseBody goodBody = [(keyA, text123)] by decide] at h
  simp [keyA] at h

theorem witness_applyFrame : State.reset.phase = .idle ∧ (inPhase .respRx full).phase ≠ .idle ∧ StatMalformed badBody ∧
    ¬StatMalformed goodBody ∧ stat ∉ (parseBody goodBody).map Prod.fst ∧
    (statKey ∈ (parseBody goodBody).map Prod.fst → ∀ f, statusKey State.reset.cfg f ≠ stat) :=
  ⟨rfl, by decide, malformed_badBody, wellformed_goodBody, by decide, fun h => absurd h (by decide)⟩

/-- `KEY_A(123)`, then `KEY_B()`: the first of two pairs keeps its value. -/
def twoPairs : Bytes := goodBody ++ [0x0A, 0x4B, 0x45, 0x59, 0x5F, 0x42, 0x28, 0x29]

theorem wellformed_twoPairs : ¬StatMalformed twoPairs := by
  rintro ⟨v, h, -⟩
  rw [show parseBody twoPairs = [(keyA, text123), ([0x4B, 0x45, 0x59, 0x5F, 0x42], [])] by decide] at h
  simp [keyA] at h

/-- `STAT_(7)`, then `KEY_A(123)`. -/
def statThenPair : Bytes := stat ++ [0x28, 0x37, 0x29, 0x0A] ++ goodBody

theorem wellformed_statThenPair : ¬StatMalformed statThenPair := by
  rintro ⟨v, h, hx⟩
  rw [show parseBody statThenPair = [(stat, [0x37]), (keyA, text123)] by decide] at h
  have : v = [0x37] := by simpa [stat, keyA] using h
  subst this
  exact hx (by unfold HexText; decide)

/-- A pair with a later pair of another key, the `STAT_` line itself with one, and the last pair of a frame. -/
theorem witness_lastPair : (inPhase .respRx full).phase ≠ .idle ∧
    (parseBody twoPairs = [] ++ (keyA, text123) :: [([0x4B, 0x45, 0x59, 0x5F, 0x42], [])] ∧ ¬StatMalformed twoPairs ∧
      keyA ∈ (inPhase .respRx full).registry.map Entry.key ∧
      keyA ∉ ([([0x4B, 0x45, 0x59, 0x5F, 0x42], [])] : List (Bytes × Bytes)).map Prod.fst) ∧
    (parseBody statThenPair = [] ++ (statKey, [0x37]) :: [(keyA, text123)] ∧ ¬StatMalformed statThenPair ∧
      statKey ∈ (inPhase .respRx full).registry.map Entry.key ∧ ∀ f, statusKey (inPhase .respRx full).cfg f ≠ statKey) ∧
    (parseBody statThenPair = [(statKey, [0x37])] ++ (keyA, text123) :: [] ∧
      (keyA = statKey ∨ statKey ∈ ([] : List (Bytes × Bytes)).map Prod.fst →
        ∀ f, statusKey (inPhase .respRx full).cfg f ≠ keyA)) :=
  ⟨by decide, ⟨by decide, wellformed_twoPairs, by decide, by decide⟩,
    ⟨by decide, wellformed_statThenPair, by decide, fun f => by cases f <;> decide⟩, by decide,
    fun h => absurd h (by decide)⟩

theorem witness_statLine : (inPhase .respRx full).phase ≠ .idle ∧
    parseBody statThenPair = [] ++ (statKey, [0x37]) :: [(keyA, text123)] ∧ ¬StatMalformed statThenPair ∧
    statKey ∉ ([(keyA, text123)] : List (Bytes × Bytes)).map Prod.fst ∧
    statusKey (inPhase .respRx full).cfg .tariff ∉ ([(keyA, text123)] : List (Bytes × Bytes)).map Prod.fst ∧
    (∀ g, statusKey (inPhase .respRx full).cfg g = statusKey (inPhase .respRx full).cfg .tariff → g = .tariff) ∧
    statusKey (inPhase .respRx full).cfg .tariff ∈ (inPhase .respRx full).registry.map Entry.key :=
  ⟨by decide, by decide, wellformed_statThenPair, by decide, by decide, fun g => by cases g <;> decide, by decide⟩

theorem witness_fixedMessages : (inPhase .discEntry full).phase = .discEntry ∧ (inPhase .identTx full).phase = .identTx ∧
    (inPhase .discFinal { prog with result := some .ok }).phase = .discFinal := ⟨rfl, rfl, rfl⟩

theorem fits_default (p : Phase) (S : Session) (r : Bytes) : Fits (inPhase p S).cfg r := fun n h => by cases h

/-- Replies of five, of no, of one and of four bytes. -/
theorem witness_identReply : Instr.rxIdentReply identReply ∈ rxRows identReply ∧ (inPhase .identRx full).phase = .identRx ∧
    (inPhase .identRx full).session = some full ∧ Fits (inPhase .identRx full).cfg identReply ∧
    (∃ z, ([1, 2, 3, 4, 5] : Bytes)[4]? = some z) ∧ (0 < ([1] : Bytes).length ∧ ([1] : Bytes).length < 5) ∧
    (0 < ([1, 2, 3, 4] : Bytes).length ∧ ([1, 2, 3, 4] : Bytes).length < 5) :=
  ⟨by decide, rfl, rfl, fits_default _ _ _, ⟨_, rfl⟩, by decide, by decide⟩

/-- A bound of three bytes: three fit, four do not. -/
def bounded (p : Phase) (S : Session) : State := { inPhase p S with cfg := { defaultParams with maxFrameLen := some 3 } }

theorem witness_identOverlong : ¬Fits (bounded .identRx full).cfg identReply := by
  intro h
  have := h 3 rfl
  revert this
  decide

theorem witness_overlong : (∀ p ∈ [Phase.identRx, Phase.respRx], (bounded p full).phase = p ∧ (bounded p full).session = some full ∧
      (bounded p full).cfg.maxFrameLen = some 3) ∧ 3 < ([1, 2, 3, 4] : Bytes).length ∧
    Instr.rxIdentReply [1, 2, 3, 4] ∈ rxRows [1, 2, 3, 4] ∧ Fits (bounded .respRx full).cfg [1, 2, 3] := by
  refine ⟨by decide, by decide, by decide, ?_⟩
  intro n h
  cases h
  decide

/-- The three mode digits, each framing. -/
theorem witness_optionSelect :
    (∀ S ∈ [limited, full, prog], ∀ f ∈ [NegFraming.raw, NegFraming.encoded],
      let s : State := { inPhase .negTx { S with baud := some 0x35 } with cfg := { defaultParams with negFraming := f } }
      s.phase = .negTx ∧ s.session = some { S with baud := some 0x35 } ∧ s.cfg.negFraming = f ∧
        (if S.isShortCycle = true ∧ S.restarted = false then 0x36 else S.readFlag) ∈ ([0x36, 0x30, 0x31] : Bytes)) := by decide

theorem witness_controlBodies : (inPhase .respRx full).phase = .respRx ∧ (inPhase .respRx full).session = some full ∧
    decodeFrame [0x01, 0x58, 0x59, 0x02, 0x15, 0x03, 0x2F] = { head := [0x58, 0x59], body := [0x15], checksumValid := false } ∧
    decodeFrame [] = { head := [], body := [], checksumValid := true } ∧
    decodeFrame [0x06] = { head := [], body := [0x06], checksumValid := true } ∧
    Fits (inPhase .respRx full).cfg [0x06] := ⟨rfl, rfl, by decide, rfl, rfl, fits_default _ _ _⟩

/-- The four clauses of a challenge; the budget of three at its boundary. -/
theorem witness_challenge : decodeFrame frameP0 =
      { head := [0x50, 0x30], body := [0x28, 0x30, 0x30, 0x30, 0x30, 0x30, 0x30, 0x30, 0x30, 0x29], checksumValid := true } ∧
    (inPhase .respRx prog).phase = .respRx ∧ Fits (inPhase .respRx prog).cfg frameP0 ∧ full.mode ≠ .program ∧
    (prog.mode = .program ∧ prog.password = none) ∧
    ({ prog with password := some [], retries := 2 }.password ≠ none ∧ 2 < (inPhase .respRx prog).cfg.retryLimit) ∧
    (inPhase .respRx prog).cfg.retryLimit ≤ { prog with password := some [], retries := 3 }.retries :=
  ⟨by decide, rfl, fits_default _ _ _, by decide, by decide, by decide, by decide⟩

theorem witness_dataResponse :
    decodeFrame [0x02, 0x41, 0x01, 0x42, 0x03, 0x00] = { head := [0x42], body := [0x41], checksumValid := false } ∧
    ([0x42] : Bytes) ∉ ([[], [0x42, 0x30]] : List Bytes) ∧ ([0x41] : Bytes) ∉ ([[], [0x15], [0x06]] : List Bytes) ∧
    decodeFrame [0x01, 0x42, 0x30, 0x02, 0x78, 0x03, 0x6F] = { head := [0x42, 0x30], body := [0x78], checksumValid := true } ∧
    decodeFrame [0x02, 0x02, 0x41, 0x03, 0x00] = { head := [], body := [0x41], checksumValid := false } ∧
    Fits (inPhase .respRx full).cfg [0x02, 0x02, 0x41, 0x03, 0x00] := by
  refine ⟨by decide, by decide, by decide, by decide, by decide, fits_default _ _ _⟩

theorem witness_stepReads : (inPhase .identRx full).phase = .identRx ∧ (inPhase .respRx full).phase = .respRx := ⟨rfl, rfl⟩

theorem witness_passwordFrame : (inPhase .pwTx { prog with password := some [] }).phase = .pwTx ∧
    (inPhase .pwTx { prog with password := some [] }).session = some { prog with password := some [] } := ⟨rfl, rfl⟩

theorem witness_dataStep : (inPhase .data { full with pending := some badBody }).phase = .data ∧ StatMalformed badBody ∧
    (inPhase .data { full with pending := some goodBody }).session = some { full with pending := some goodBody } ∧
    ¬StatMalformed goodBody := ⟨rfl, malformed_badBody, rfl, wellformed_goodBody⟩

theorem witness_exitDecision : (inPhase .xferExit full).phase = .xferExit ∧ full.readFlag ≠ 0x31 ∧ prog.readFlag = 0x31 := by
  decide

/-- Both heads, an empty text and a text. -/
theorem witness_commandFrame : ∀ h ∈ [CmdHead.r1, CmdHead.w1], ∀ t ∈ [([] : Bytes), [0x41]],
    (inPhase .cmdTx { prog with cmdHead := some h, cmdBody := some t }).phase = .cmdTx ∧
    (inPhase .cmdTx { prog with cmdHead := some h, cmdBody := some t }).session =
      some { prog with cmdHead := some h, cmdBody := some t } := by decide

/-- The budget of three at its boundary: two used and three used. -/
theorem witness_retry : (inPhase .retry { full with retries := 2 }).phase = .retry ∧
    2 < (inPhase .retry { full with retries := 2 }).cfg.retryLimit ∧
    (inPhase .retry { full with retries := 3 }).cfg.retryLimit ≤ 3 := by decide

theorem witness_errorStep : (inPhase .error { full with errKind := some .frameOverflow }).phase = .error ∧
    (inPhase .error { full with errKind := some .frameOverflow }).session = some { full with errKind := some .frameOverflow } :=
  ⟨rfl, rfl⟩

theorem witness_done : (inPhase .done { full with result := some .ok }).phase = .done ∧
    (inPhase .done { full with result := some .ok }).session = some { full with result := some .ok } := ⟨rfl, rfl⟩

theorem witness_start : State.reset.phase = .idle ∧ Mode.limitedRead ≠ .program := by decide

theorem witness_prompts : (inPhase .awaitPassword prog).phase = .awaitPassword ∧ (inPhase .cmdPrompt prog).phase = .cmdPrompt ∧
    (inPhase .awaitCmdText { prog with cmdHead := some .r1 }).phase = .awaitCmdText ∧
    (inPhase .cmdPrompt prog).session = some prog := ⟨rfl, rfl, rfl, rfl⟩

theorem witness_unfit : (inPhase .data full).phase ≠ .idle ∧ (inPhase .data full).phase ∉ [.awaitPassword, .cmdPrompt, .awaitCmdText] ∧
    exec .cancel (inPhase .data full) = .refused .answerNotExpected := ⟨by decide, by decide, rfl⟩

theorem witness_boot : (defaultParams.schema.map Entry.key).Nodup ∧
    ¬(([⟨keyA, .text, []⟩, ⟨keyA, .value, []⟩] : List Entry).map Entry.key).Nodup := by decide

/-- A coherent state with a step to take, in a read session and at reset. -/
theorem witness_coherentStep : (inPhase .discEntry full).Coherent ∧ State.reset.Coherent ∧
    (∃ t, Machine.step (inPhase .discEntry full) = .next t) ∧ ∃ t, Machine.step State.reset = .next t :=
  ⟨freshCoherent _ trivial (by decide), reset_coherent, ⟨_, rfl⟩, ⟨_, rfl⟩⟩

theorem witness_waits : waits State.reset.phase = true ∧ (inPhase .awaitPassword prog).Coherent ∧
    waits (inPhase .awaitPassword prog).phase = true :=
  ⟨rfl, freshCoherent _ rfl (by decide), rfl⟩

theorem witness_openCycle : openCycle State.reset.trace = some (decide (State.reset.phase ≠ .idle)) ∧
    openCycle [.start .fullRead, .rx []] = some true := by decide

/-- A daemon cycle ends; the sequencer and a command start cycles. -/
theorem witness_counter :
    (∃ t, Machine.step (daemonAt 4 .done { limited with result := some .ok }) = .next t ∧ t.trace = [] ++ [.cycleDone .ok]) ∧
    (∃ t, Machine.step State.reset = .next t ∧ t.trace = [] ++ [.start .fullRead] ∧ State.reset.daemonCycle = false) ∧
    ∃ t, Machine.step { State.reset with commands := [.op (.start .program)] } = .next t ∧ t.trace = [] ++ [.start .program] :=
  ⟨⟨_, rfl, rfl⟩, ⟨_, rfl, rfl, rfl⟩, ⟨_, rfl, rfl⟩⟩

/-- The option selects of daemon cycles 0 and 1, and the schema declaration of daemon cycle 5. -/
theorem witness_cadence :
    (∃ t, Machine.step (daemonAt 0 .negTx (daemonRecord 0)) = .next t ∧ (daemonAt 0 .negTx (daemonRecord 0)).Coherent ∧
      t.trace = [] ++ [.tx [0x06, 0x30, 0x35, 0x30, 0x0D, 0x0A]] ∧ (daemonRecord 0).restarted = false) ∧
    (∃ t, Machine.step (daemonAt 1 .negTx (daemonRecord 1)) = .next t ∧ (daemonAt 1 .negTx (daemonRecord 1)).Coherent ∧
      t.trace = [] ++ [.tx [0x06, 0x30, 0x35, 0x36, 0x0D, 0x0A]] ∧ (daemonRecord 1).restarted = false) ∧
    ∃ t l es, Machine.step (daemonAt 5 .data (daemonRecord 5)) = .next t ∧ (daemonAt 5 .data (daemonRecord 5)).Coherent ∧
      t.trace = [] ++ .declareSchema l :: es :=
  ⟨⟨_, rfl, daemonCoherent 0 (.inl rfl), by decide, rfl⟩, ⟨_, rfl, daemonCoherent 1 (.inl rfl), by decide, rfl⟩,
    _, declarationList exampleSchema, (regSnapshot exampleSchema).map fun e => .publish e.1 e.2.2, rfl,
    daemonCoherent 5 (.inr rfl), by decide⟩

theorem witness_readSessionEnds : State.reset.phase = .idle ∧ Mode.fullRead ≠ .program ∧
    (List.replicate 26 ([] : Bytes)).length = 6 * (State.reset.cfg.retryLimit + 1) + 2 := by decide

theorem witness_timeoutNak : (inPhase .respRx full).phase = .respRx ∧ (inPhase .respRx full).session = some full ∧
    Fits (inPhase .respRx full).cfg [0x15] := ⟨rfl, rfl, fits_default _ _ _⟩

theorem witness_unobserved :
    unobserved (inPhase .retry { full with lastCause := some .protocolNak }) =
      unobserved { inPhase .retry { full with lastCause := some .transportTimeout } with trace := [.rx []] } ∧
    inPhase .retry { full with lastCause := some .protocolNak } ≠
      { inPhase .retry { full with lastCause := some .transportTimeout } with trace := [.rx []] } := by decide

theorem witness_raise : ∃ t, exec .step (inPhase .retry { full with retries := 3 }) = .next t ∧ t.phase = .error := ⟨_, rfl, rfl⟩

/-- A read cycle that fails on its first response, at the raise, after the report and in IDLE again. -/
theorem witness_failedReadCycle : State.reset.phase = .idle ∧ Mode.fullRead ≠ .program ∧
    ∀ n ∈ [5, 6, 7], ∃ t u es, exec (.start .fullRead) State.reset = .next t ∧
      runReads (List.replicate n [0x02, 0x41, 0x41, 0x41, 0x41, 0x03, 0x00]) t = .next u ∧ u.trace = t.trace ++ es ∧
      (u.phase = .error ∨ ∃ k, .reportError k ∈ es) := by
  refine ⟨rfl, by decide, fun n hn => ?_⟩
  simp only [List.mem_cons, List.not_mem_nil, or_false] at hn
  rcases hn with rfl | rfl | rfl
  · exact ⟨_, _, _, rfl, rfl, rfl, .inl rfl⟩
  · exact ⟨_, _, _, rfl, rfl, rfl, .inr ⟨.checksumMismatch, by decide⟩⟩
  · exact ⟨_, _, _, rfl, rfl, rfl, .inr ⟨.checksumMismatch, by decide⟩⟩

theorem witness_fields : ∃ t S', exec .step (inPhase .retry full) = .next t ∧ (inPhase .retry full).phase ≠ .idle ∧
    t.session = some S' ∧ S'.retries ≠ full.retries := ⟨_, _, rfl, by decide, rfl, by decide⟩

theorem witness_operations : onlyAnswers .regSnapshot = true ∧ writesRegistry (.regUpdate keyA []) = true ∧
    (inPhase .respRx full).phase ≠ .idle ∧ State.reset.phase = .idle ∧ onlyAnswers .step = false ∧ writesRegistry .step = false :=
  ⟨rfl, rfl, by decide, rfl, rfl, rfl⟩

theorem witness_schema : ∃ t es l, exec .step (inPhase .data { full with pending := some [] }) = .next t ∧
    t.trace = (inPhase .data { full with pending := some [] }).trace ++ es ∧ .declareSchema l ∈ es :=
  ⟨_, _, declarationList exampleSchema, rfl, by simp [inPhase, State.reset, State.resetWith]; rfl, by decide⟩

/-- A later DATA step of the same cycle, with the schema declared. -/
theorem witness_schemaStays : ∃ t S', exec .step (inPhase .data { prog with pending := some [], schemaDeclared := true }) = .next t ∧
    (inPhase .data prog).phase ≠ .idle ∧ t.session = some S' ∧ S'.schemaDeclared = true :=
  ⟨_, _, rfl, by decide, rfl, rfl⟩

theorem witness_readSession : (inPhase .identTx full).Coherent ∧ (inPhase .identTx full).session = some full ∧ full.mode ≠ .program ∧
    ∃ t, exec .step (inPhase .identTx full) = .next t ∧ t.trace = (inPhase .identTx full).trace ++ [.tx identMsg] :=
  ⟨freshCoherent _ trivial (by decide), rfl, by decide, _, rfl, rfl⟩

theorem witness_wireOutOfTurn : (inPhase .data full).phase ∉
    [.discEntry, .discFinal, .identTx, .negTx, .pwTx, .cmdTx, .identRx, .respRx, .error] := by decide

end Sys2Proof.Tests
end

section
/-! Support and proofs. The frame of a session move: the fields of State outside the session, said once for every move of the current
phase (Laws/Step.lean) and then for every instruction that is no operation. -/

namespace Sys2Proof.Machine

/-- Declaring the schema appends to the trace and writes nothing else (R263). -/
theorem declareOnce_eq (S : Session) (s : State) :
    declareOnce S s = { s with
      trace := s.trace ++ if declaresSchema S then [.declareSchema (declarationList s.registry)] else [] } := by
  unfold declareOnce
  split <;> simp [State.record]

@[simp] theorem declareOnce_cfg (S : Session) (s : State) : (declareOnce S s).cfg = s.cfg := by rw [declareOnce_eq]
@[simp] theorem declareOnce_counter (S : Session) (s : State) : (declareOnce S s).counter = s.counter := by rw [declareOnce_eq]
@[simp] theorem declareOnce_daemonCycle (S : Session) (s : State) : (declareOnce S s).daemonCycle = s.daemonCycle := by
  rw [declareOnce_eq]
@[simp] theorem declareOnce_commands (S : Session) (s : State) : (declareOnce S s).commands = s.commands := by
  rw [declareOnce_eq]
@[simp] theorem declareOnce_draws (S : Session) (s : State) : (declareOnce S s).draws = s.draws := by rw [declareOnce_eq]
@[simp] theorem declareOnce_output (S : Session) (s : State) : (declareOnce S s).output = s.output := by rw [declareOnce_eq]

/-- No step rule of a phase touches the environment's side: the parameters, the pending commands, the draws, the last answer. -/
theorem SessionMove.environment_eq {r : Bytes} {s t : State} (h : SessionMove r s t) :
    t.cfg = s.cfg ∧ t.commands = s.commands ∧ t.draws = s.draws ∧ t.output = s.output := by
  cases h <;> simp

/-- A phase's step writes the registry only by the commit of the `DATA` step (R210, R262). -/
theorem SessionMove.registry_eq {r : Bytes} {s t : State} (h : SessionMove r s t) (hd : s.phase ≠ .data) :
    t.registry = s.registry := by
  cases h with
  | publish S b reg hp => exact absurd hp hd
  | _ => simp

/-- The counter advances only in the `DONE` step (R317). -/
theorem SessionMove.counter_eq {r : Bytes} {s t : State} (h : SessionMove r s t) (hd : s.phase ≠ .done) :
    t.counter = s.counter := by
  cases h with
  | finish S c hp => exact absurd hp hd
  | _ => simp

/-- The mark of a daemon cycle is cleared only in the `DONE` step (log 7). -/
theorem SessionMove.daemonCycle_eq {r : Bytes} {s t : State} (h : SessionMove r s t) (hd : s.phase ≠ .done) :
    t.daemonCycle = s.daemonCycle := by
  cases h with
  | finish S c hp => exact absurd hp hd
  | _ => simp

/-- Settles O57: an operation is excluded by hypothesis; a session move, with or without a draw before it, keeps what the lemmas above
say, and is STEP's own in `DATA` and `DONE`; START and the answers write only trace, session record and phase. -/
theorem sessionInstructionsKeepTheRest : Obligations.SessionInstructionsKeepTheRest := by
  intro i s t hanswers hwrites hexec
  cases exec_move hexec with
  | answer _ o hi => simp [hanswers, hwrites] at hi
  | write _ reg o hi => obtain ⟨k, v, rfl⟩ | ⟨b, rfl⟩ := hi <;> cases hwrites
  | session _ r _ hi hmove =>
    obtain ⟨hcfg, hcommands, hdraws, houtput⟩ := hmove.environment_eq
    have hdata (hp : s.phase = .data) : s.phase = .data ∧ i = .step := ⟨hp, hi (.inl hp)⟩
    have hdone (hp : s.phase = .done) : s.phase = .done ∧ i = .step := ⟨hp, hi (.inr hp)⟩
    exact ⟨hcfg, hcommands, houtput,
      fun h => hdata (not_imp_comm.mp hmove.registry_eq h),
      fun h => hdone (not_imp_comm.mp hmove.counter_eq h),
      fun h => hdone (not_imp_comm.mp hmove.daemonCycle_eq h),
      fun h => absurd hdraws h⟩
  | drawn r _ hp hmove =>
    obtain ⟨hcfg, hcommands, -, houtput⟩ := hmove.environment_eq
    have hdata : s.phase ≠ .data := by rcases hp with hp | hp <;> simp [hp]
    have hdone : s.phase ≠ .done := by rcases hp with hp | hp <;> simp [hp]
    exact ⟨hcfg, hcommands, houtput,
      fun h => absurd (hmove.registry_eq hdata) h,
      fun h => absurd (hmove.counter_eq hdone) h,
      fun h => absurd (hmove.daemonCycle_eq hdone) h,
      fun _ => ⟨rfl, hp⟩⟩
  | start | password | text | command | exit | cancel => simp

end Sys2Proof.Machine
end

section
/-! Support and proofs. What reset leaves (R55), and what a move writes of the state: the trace at its end only, the registry
within its layout (R46, R52), and the fields of the session record in the phases of their writers (R33). -/

namespace Sys2Proof.Machine

/-- Settles O44: `boot` accepts a schema with unique keys, and the fields are those of `State.resetWith`. -/
theorem resetLeavesTheSpecValues : Obligations.ResetLeavesTheSpecValues := by
  intro p hunique
  exact ⟨State.resetWith p, if_pos hunique, rfl, rfl, rfl, rfl, rfl, rfl⟩

/-- `t` extends the trace of `s` and keeps its parameters and the layout of its registry. -/
structure Extends (s t : State) : Prop where
  trace : ∃ es, t.trace = s.trace ++ es
  cfg : t.cfg = s.cfg
  layout : regLayout t.registry = regLayout s.registry

theorem SessionMove.extends {r : Bytes} {s t : State} (h : SessionMove r s t) : Extends s t := by
  refine ⟨?_, h.environment_eq.1, ?_⟩
  · cases h with
    | publish S b reg => exact ⟨_, by simp [declareOnce_eq]; rfl⟩
    | _ => simp
  · cases h with
    | publish S b reg _ _ _ ha => simpa using applyFrame_layout ha
    | _ => simp

theorem ExecMove.extends {i : Instr} {s t : State} (h : ExecMove s i t) : Extends s t := by
  cases h with
  | answer | start | password | text | command | exit | cancel => exact ⟨by simp, rfl, rfl⟩
  | write _ reg o _ _ hl => exact ⟨by simp, rfl, hl⟩
  | session _ _ _ _ hmove => exact hmove.extends
  | drawn _ _ _ hmove => exact ⟨hmove.extends.trace, hmove.extends.cfg, hmove.extends.layout⟩

/-- Settles O50: a step is an instruction run on a state with the same trace, parameters and registry. -/
theorem traceGrowsAndLayoutStays : Obligations.TraceGrowsAndLayoutStays := by
  intro s t hstep
  obtain ⟨i, cs, -, hexec⟩ | ⟨-, hexec⟩ := step_exec hstep
  · obtain ⟨htrace, hcfg, hlayout⟩ := (exec_move hexec).extends
    exact ⟨htrace, hcfg, hlayout⟩
  · obtain ⟨htrace, hcfg, hlayout⟩ := (exec_move hexec).extends
    simp only [claimCycle_trace, claimCycle_cfg, claimCycle_registry] at htrace hcfg hlayout
    exact ⟨htrace, hcfg, hlayout⟩

/-- The writers of R33: how a record `S` in phase `ph` may become `S'` in phase `ph'` by one instruction of a cycle. What a
DATA step has declared stays declared (R263). -/
structure WrittenByRules (ph ph' : Phase) (S S' : Session) : Prop where
  mode : S'.mode = S.mode
  readFlag : S'.readFlag = S.readFlag
  isShortCycle : S'.isShortCycle = S.isShortCycle
  restarted : S'.restarted ≠ S.restarted → ph = .retry
  password : S'.password ≠ S.password → ph = .awaitPassword
  head : S'.head ≠ S.head → ph = .respRx
  baud : S'.baud ≠ S.baud → ph = .identRx
  retries : S'.retries ≠ S.retries → S'.retries = S.retries + 1 ∧ (ph = .respRx ∨ ph = .retry)
  lastCause : S'.lastCause ≠ S.lastCause → ph = .identRx ∨ ph = .respRx
  schemaDeclared : S'.schemaDeclared ≠ S.schemaDeclared → ph = .data
  declaredStays : S.schemaDeclared = true → S'.schemaDeclared = true
  cmdHead : S'.cmdHead ≠ S.cmdHead → ph = .cmdPrompt ∨ ph = .cmdTx
  cmdBody : S'.cmdBody ≠ S.cmdBody → ph = .awaitCmdText ∨ ph = .cmdTx
  pending : S'.pending ≠ S.pending → ph = .respRx ∨ ph = .data
  errKind : S'.errKind ≠ S.errKind → ph' = .error ∧ ph ∈ [Phase.identRx, .respRx, .data, .retry]
  result : S'.result ≠ S.result → ph ∈ [Phase.awaitPassword, .xferExit, .cmdPrompt, .awaitCmdText, .error]

theorem WrittenByRules.refl (ph ph' : Phase) (S : Session) : WrittenByRules ph ph' S S := by
  constructor <;> simp

/-- A record after a phase's step was one before it, and the step wrote the fields its rule writes. -/
theorem SessionMove.writtenByRules {r : Bytes} {s t : State} {S' : Session} (h : SessionMove r s t)
    (ht : t.session = some S') : ∃ S, s.session = some S ∧ WrittenByRules s.phase t.phase S S' := by
  cases h with
  | wait | discEntry | identTx | discFinal => exact ⟨S', ht, .refl _ _ S'⟩
  | negTx S _ _ hs | pwTx S _ _ hs | askChoice S _ hs => exact ⟨S', ht, .refl _ _ S'⟩
  | finish => cases ht
  | overflow S hp hs =>
    cases ht
    exact ⟨S, hs, { WrittenByRules.refl s.phase .error S with
      errKind := fun _ => ⟨rfl, by rcases hp with hp | hp <;> simp [hp]⟩ }⟩
  | baud S z hp hs =>
    cases ht
    exact ⟨S, hs, { WrittenByRules.refl _ _ S with baud := fun _ => hp }⟩
  | identSilent S hp hs | identShort S hp hs =>
    cases ht
    exact ⟨S, hs, { WrittenByRules.refl _ _ S with lastCause := fun _ => .inl hp }⟩
  | challengeRefused S hd hp hs | respRaise S hd k _ hp hs =>
    cases ht
    exact ⟨S, hs, { WrittenByRules.refl s.phase .error S with
      head := fun _ => hp, errKind := fun _ => ⟨rfl, by simp [hp]⟩ }⟩
  | challengePrompt S hd hp hs | ack S hd hp hs =>
    cases ht
    exact ⟨S, hs, { WrittenByRules.refl _ _ S with head := fun _ => hp }⟩
  | challengeAgain S hd hp hs =>
    cases ht
    exact ⟨S, hs, { WrittenByRules.refl _ _ S with
      head := fun _ => hp, lastCause := fun _ => .inr hp, retries := fun _ => ⟨rfl, .inl hp⟩ }⟩
  | challengeExhausted S hd hp hs =>
    cases ht
    exact ⟨S, hs, { WrittenByRules.refl s.phase .error S with
      head := fun _ => hp, lastCause := fun _ => .inr hp, errKind := fun _ => ⟨rfl, by simp [hp]⟩ }⟩
  | restart S hd k _ hp hs =>
    cases ht
    exact ⟨S, hs, { WrittenByRules.refl _ _ S with head := fun _ => hp, lastCause := fun _ => .inr hp }⟩
  | stage S hd b hp hs =>
    cases ht
    exact ⟨S, hs, { WrittenByRules.refl _ _ S with head := fun _ => hp, pending := fun _ => .inl hp }⟩
  | malformed S b hp hs =>
    cases ht
    exact ⟨S, hs, { WrittenByRules.refl s.phase .error S with errKind := fun _ => ⟨rfl, by simp [hp]⟩ }⟩
  | publish S b reg hp hs =>
    cases ht
    exact ⟨S, hs, { WrittenByRules.refl _ _ S with
      schemaDeclared := fun _ => hp, declaredStays := fun hd => by simp [hd], pending := fun _ => .inr hp }⟩
  | readEnds S hp hs =>
    cases ht
    exact ⟨S, hs, { WrittenByRules.refl _ _ S with result := fun _ => by simp [hp] }⟩
  | cmdTx S hd b hp hs =>
    cases ht
    exact ⟨S, hs, { WrittenByRules.refl _ _ S with cmdHead := fun _ => .inr hp, cmdBody := fun _ => .inr hp }⟩
  | again S hp hs =>
    cases ht
    exact ⟨S, hs, { WrittenByRules.refl _ _ S with restarted := fun _ => hp, retries := fun _ => ⟨rfl, .inr hp⟩ }⟩
  | exhausted S hp hs =>
    cases ht
    exact ⟨S, hs, { WrittenByRules.refl s.phase .error S with errKind := fun _ => ⟨rfl, by simp [hp]⟩ }⟩
  | report S k hp hs =>
    cases ht
    exact ⟨S, hs, { WrittenByRules.refl _ _ S with result := fun _ => by simp [hp] }⟩

/-- A record after an instruction of a cycle was one before it, and the instruction wrote the fields its rule writes. -/
theorem ExecMove.writtenByRules {i : Instr} {s t : State} {S' : Session} (h : ExecMove s i t) (hp : s.phase ≠ .idle)
    (ht : t.session = some S') : ∃ S, s.session = some S ∧ WrittenByRules s.phase t.phase S S' := by
  cases h with
  | answer | write => exact ⟨S', ht, .refl _ _ S'⟩
  | session _ _ _ _ hmove => exact hmove.writtenByRules ht
  | drawn _ _ _ hmove => exact hmove.writtenByRules ht
  | start m hidle => exact absurd hidle hp
  | password S bs hp hs =>
    cases ht
    exact ⟨S, hs, { WrittenByRules.refl _ _ S with password := fun _ => hp }⟩
  | text S bs hp hs =>
    cases ht
    exact ⟨S, hs, { WrittenByRules.refl _ _ S with cmdBody := fun _ => .inl hp }⟩
  | command S c hd hp hs =>
    cases ht
    exact ⟨S, hs, { WrittenByRules.refl _ _ S with cmdHead := fun _ => .inl hp }⟩
  | exit S hp hs =>
    cases ht
    exact ⟨S, hs, { WrittenByRules.refl _ _ S with result := fun _ => by simp [hp] }⟩
  | cancel S hp hs =>
    cases ht
    exact ⟨S, hs, { WrittenByRules.refl _ _ S with
      result := fun _ => by rcases hp with hp | hp | hp <;> simp [hp] }⟩

/-- Settles O55: the clauses are the writers' table, field by field. -/
theorem sessionFieldsAreWrittenByTheirRules : Obligations.SessionFieldsAreWrittenByTheirRules := by
  intro i s t S S' hexec hp hs ht
  obtain ⟨S₀, hs₀, h⟩ := (exec_move hexec).writtenByRules hp ht
  obtain rfl : S₀ = S := Option.some.inj (hs₀.symm.trans hs)
  exact ⟨h.mode, h.readFlag, h.isShortCycle, h.restarted, h.password, h.head, h.baud, h.retries, h.lastCause,
    h.schemaDeclared, h.cmdHead, h.cmdBody, h.pending, h.errKind, h.result⟩

end Sys2Proof.Machine
end

section
/-! Support and proofs. Coherence is kept: first of the session record, as a write in the old phase followed by the entry of
the new one, then of the state. -/

namespace Sys2Proof.Machine

/-- The phases in which no error is recorded and no result decided (R44, R333). -/
abbrev Phase.undecided (ph : Phase) : Prop := ph ≠ .discFinal ∧ ph ≠ .error ∧ ph ≠ .done

section
variable {p : Params} {ph ph' : Phase} {S : Session} (h : SessionCoherent p ph S)
include h

theorem SessionCoherent.errKind_none (hp : ph.undecided) : S.errKind = none := by
  obtain ⟨-, herror, hdone⟩ := hp
  by_contra he
  exact (h.errorLate he).elim herror hdone

theorem SessionCoherent.result_none (hp : ph.undecided) : S.result = none := by
  obtain ⟨hfinal, -, hdone⟩ := hp
  by_contra hr
  exact (h.resultLate hr).elim hfinal hdone

/-- The record as it stands enters the next phase, which finds what its step reads. -/
theorem SessionCoherent.enter (hst : stagedAt ph' S) (hp : ph.undecided := by decide) :
    SessionCoherent p ph' S :=
  { h with
    errorLate := fun he => absurd (h.errKind_none hp) he
    resultLate := fun hr => absurd (h.result_none hp) hr
    staged := hst }

/-- The kind of an error is recorded and the phase becomes ERROR (R333). -/
theorem SessionCoherent.raise {k : ErrorKind} (hk : takenAs k = .reported) (hp : ph.undecided := by decide) :
    SessionCoherent p .error { S with errKind := some k } :=
  { h with
    errorReported := by rintro _ ⟨⟩; exact hk
    errorLate := fun _ => .inl rfl
    abandonedWith := fun k' hr => by simp [h.result_none hp] at hr
    resultLate := fun hr => absurd (h.result_none hp) hr
    staged := by simp [stagedAt] }

/-- The result is decided and the phase becomes the one that carries it out (R258, R266, R268, R269). -/
theorem SessionCoherent.conclude {c : CycleResult} (hc : ∀ k, c ≠ .abandoned k)
    (hp' : ph' = .done ∨ ph' = .discFinal ∧ S.mode = .program) (hp : ph.undecided := by decide) :
    SessionCoherent p ph' { S with result := some c } :=
  { h with
    errorLate := fun he => absurd (h.errKind_none hp) he
    abandonedWith := by rintro k ⟨⟩; exact absurd rfl (hc k)
    resultLate := fun _ => hp'.symm.imp And.left id
    staged := by obtain rfl | ⟨rfl, hm⟩ := hp' <;> simp [stagedAt, *] }

end

/-- At RESP_RX the head of the response is written first (R248). -/
theorem SessionCoherent.withHead {p : Params} {S : Session} (h : SessionCoherent p .respRx S) (hd : Bytes) :
    SessionCoherent p .respRx { S with head := hd } := { h with }

/-- The record that START writes (R314). -/
theorem SessionCoherent.fresh (p : Params) (m : Mode) : SessionCoherent p .discEntry (freshSession m) := by
  constructor <;> simp [freshSession, stagedAt]

/-- A command-mode record is a Program one (R35). -/
theorem SessionCoherent.mode_of_commandMode {p : Params} {ph : Phase} {S : Session} (h : SessionCoherent p ph S)
    (hc : commandMode S = true) : S.mode = .program := by
  have hflag := h.readFlag
  cases hm : S.mode <;> simp_all [commandMode, readFlagOf]

/-- The record stays coherent through the step of a phase. -/
theorem SessionMove.sessionCoherent {r : Bytes} {s t : State} {S' : Session} (h : SessionMove r s t)
    (hc : ∀ S, s.session = some S → SessionCoherent s.cfg s.phase S) (ht : t.session = some S') :
    SessionCoherent t.cfg t.phase S' := by
  have hat {S ph} (hs : s.session = some S) (hp : s.phase = ph) : SessionCoherent s.cfg ph S := hp ▸ hc S hs
  cases h with
  | wait => exact hc S' ht
  | discEntry hp | identTx hp => exact (hat ht hp).enter trivial
  | discFinal hp =>
    have hS := hat ht hp
    exact { hS with
      errorLate := fun _ => .inr rfl
      resultLate := fun _ => .inr rfl
      staged := hS.staged.2 }
  | finish => cases ht
  | overflow S hp hs =>
    cases ht
    exact (hc S hs).raise rfl (by rcases hp with hp | hp <;> rw [hp] <;> decide)
  | baud S z hp hs =>
    cases ht
    have hS : SessionCoherent s.cfg .identRx { S with baud := some z } := { hat hs hp with }
    exact hS.enter (by simp [stagedAt])
  | identSilent S hp hs | identShort S hp hs =>
    cases ht
    have hS := (hat hs hp).enter (ph' := .retry) trivial
    exact { hS with causeKind := by rintro _ ⟨⟩; rfl }
  | negTx S _ hp hs | pwTx S _ hp hs =>
    cases hs.symm.trans ht
    exact (hat hs hp).enter trivial
  | challengeRefused S hd hp hs =>
    cases ht
    exact ((hat hs hp).withHead hd).raise rfl
  | challengePrompt S hd hp hs hm =>
    cases ht
    exact ((hat hs hp).withHead hd).enter hm
  | challengeAgain S hd hp hs hm hw hr =>
    cases ht
    have hS := ((hat hs hp).withHead hd).enter (ph' := .pwTx) ⟨hm, hw⟩
    exact { hS with
      budget := hr
      restarted := fun _ => Nat.succ_pos _
      causeKind := by rintro _ ⟨⟩; rfl }
  | challengeExhausted S hd hp hs =>
    cases ht
    have hS : SessionCoherent s.cfg .respRx { S with head := hd, lastCause := some .repeatedChallenge } :=
      { (hat hs hp).withHead hd with causeKind := by rintro _ ⟨⟩; rfl }
    exact hS.raise rfl
  | restart S hd k hk hp hs =>
    cases ht
    have hS := ((hat hs hp).withHead hd).enter (ph' := .retry) trivial
    exact { hS with causeKind := by rcases hk with rfl | rfl <;> (rintro _ ⟨⟩; rfl) }
  | ack S hd hp hs =>
    cases ht
    exact ((hat hs hp).withHead hd).enter trivial
  | respRaise S hd k hk hp hs =>
    cases ht
    exact ((hat hs hp).withHead hd).raise (by rcases hk with rfl | rfl <;> rfl)
  | stage S hd b hp hs =>
    cases ht
    have hS : SessionCoherent s.cfg .respRx { S with head := hd, pending := some b } := { (hat hs hp).withHead hd with }
    exact hS.enter (by simp [stagedAt])
  | malformed S b hp hs =>
    cases ht
    exact (hat hs hp).raise rfl
  | publish S b reg hp hs =>
    cases ht
    have hS := (hat hs hp).enter (ph' := .xferExit) trivial
    rw [moveTo_cfg, setSession_cfg, publishAll_cfg, commit_cfg, declareOnce_cfg]
    exact { hS with
      shortUndeclared := fun hshort => by
        have hshort : S.isShortCycle = true := hshort
        simp [declaresSchema, hshort, hS.shortUndeclared hshort] }
  | askChoice S hp hs hcmd =>
    cases hs.symm.trans ht
    exact (hat hs hp).enter ((hat hs hp).mode_of_commandMode hcmd)
  | readEnds S hp hs =>
    cases ht
    exact (hat hs hp).conclude nofun (.inl rfl)
  | cmdTx S a b hp hs =>
    cases ht
    have hS := (hat hs hp).enter (ph' := .respRx) trivial
    exact { hS with }
  | again S hp hs hr =>
    cases ht
    have hS := (hat hs hp).enter (ph' := .discEntry) trivial
    exact { hS with
      budget := hr
      restarted := fun _ => Nat.succ_pos _ }
  | exhausted S hp hs =>
    cases ht
    exact (hat hs hp).raise rfl
  | report S k hp hs hk =>
    cases ht
    exact { hat hs hp with
      errorLate := fun _ => .inr rfl
      abandonedWith := by rintro _ ⟨⟩; exact hk
      resultLate := fun _ => .inr rfl
      staged := by simp [stagedAt] }

/-- A phase's step keeps "the record is absent exactly in IDLE" (R33). -/
theorem SessionMove.idle_iff {r : Bytes} {s t : State} (h : SessionMove r s t) (hc : s.phase = .idle ↔ s.session = none) :
    t.phase = .idle ↔ t.session = none := by
  cases h with
  | wait => exact hc
  | discEntry hp | identTx hp | discFinal hp => simp [← hc, hp]
  | negTx _ _ _ hs | pwTx _ _ _ hs | askChoice _ _ hs => simp [hs]
  | _ => simp

/-- A daemon cycle goes on only as the daemon cycle it was, with the same counter; the `DONE` step ends it. -/
theorem SessionMove.daemonCycle_goes_on {r : Bytes} {s t : State} (h : SessionMove r s t) (ht : t.daemonCycle = true) :
    s.daemonCycle = true ∧ t.counter = s.counter ∧ (t.phase = .idle → s.phase = .idle) := by
  cases h with
  | finish => cases ht
  | _ => simpa using ht

/-- The step of a phase keeps the state coherent. -/
theorem SessionMove.coherent {r : Bytes} {s t : State} (h : SessionMove r s t) (hc : s.Coherent) : t.Coherent where
  idleIff := h.idle_iff hc.idleIff
  layout := by rw [h.extends.layout, h.extends.cfg, hc.layout]
  unique := by rw [h.extends.cfg]; exact hc.unique
  record := fun _ ht => h.sessionCoherent hc.record ht
  daemonOutsideIdle := fun hd hidle => by
    obtain ⟨hds, -, hphase⟩ := h.daemonCycle_goes_on hd
    exact hc.daemonOutsideIdle hds (hphase hidle)
  daemonRegime := fun hd => by
    rw [h.extends.cfg]
    exact hc.daemonRegime (h.daemonCycle_goes_on hd).1
  cadence := fun hd S' ht => by
    obtain ⟨S, hs, hw⟩ := h.writtenByRules ht
    obtain ⟨hds, hcounter, -⟩ := h.daemonCycle_goes_on hd
    rw [hw.mode, hcounter]
    exact hc.cadence hds S hs

/-- The state that START leaves in IDLE (R313). -/
abbrev started (s : State) (m : Mode) : State := ((s.record (.start m)).setSession (freshSession m)).moveTo .discEntry

/-- START in IDLE opens a cycle, a daemon cycle where it is claimed, which has to be in the mode of the cadence (R312). -/
theorem started_coherent {s : State} {m : Mode} (hlayout : regLayout s.registry = regLayout s.cfg.schema)
    (hunique : keysUnique s.cfg.schema)
    (hd : s.daemonCycle = true → s.cfg.regime = .daemon ∧ m = daemonMode s.counter) : (started s m).Coherent where
  idleIff := by simp
  layout := hlayout
  unique := hunique
  record := by rintro _ ⟨⟩; exact .fresh s.cfg m
  daemonOutsideIdle := by simp
  daemonRegime := fun h => (hd h).1
  cadence := by rintro h _ ⟨⟩; exact (hd h).2

/-- Where only session record, phase and trace change and the cycle runs on, coherence is that of the record. -/
theorem State.Coherent.resume {s : State} {S S' : Session} {ph : Phase} {T : List Event} (hc : s.Coherent)
    (hs : s.session = some S) (hmode : S'.mode = S.mode) (hph : ph ≠ .idle) (hS : SessionCoherent s.cfg ph S') :
    State.Coherent { s with session := some S', phase := ph, trace := T } where
  idleIff := by simp [hph]
  layout := hc.layout
  unique := hc.unique
  record := by rintro _ ⟨⟩; exact hS
  daemonOutsideIdle := fun _ => hph
  daemonRegime := hc.daemonRegime
  cadence := by rintro hd _ ⟨⟩; rw [hmode]; exact hc.cadence hd S hs

/-- Every instruction keeps the state coherent: a phase's step by its own lemma, START because no cycle runs in IDLE, and the
operator's answers because the cycle goes on (R258, R268, R269, R313). -/
theorem ExecMove.coherent {i : Instr} {s t : State} (h : ExecMove s i t) (hc : s.Coherent) : t.Coherent := by
  have hat {S ph} (hs : s.session = some S) (hp : s.phase = ph) : SessionCoherent s.cfg ph S := hp ▸ hc.record S hs
  cases h with
  | answer => exact { hc with }
  | write _ reg o _ _ hl => exact { hc with layout := hl.trans hc.layout }
  | session _ _ _ _ hmove => exact hmove.coherent hc
  | drawn _ _ _ hmove => exact hmove.coherent { hc with }
  | start m hp =>
    exact started_coherent hc.layout hc.unique fun hd => absurd hp (hc.daemonOutsideIdle hd)
  | password S bs hp hs =>
    have hS := hat hs hp
    have hS' : SessionCoherent s.cfg .awaitPassword { S with password := some bs } :=
      { hS with passwordMode := fun _ => hS.staged }
    exact hc.resume hs rfl nofun (hS'.enter ⟨hS.staged, by simp⟩)
  | text S bs hp hs =>
    have hS := hat hs hp
    have hS' : SessionCoherent s.cfg .awaitCmdText { S with cmdBody := some bs } := { hS with }
    exact hc.resume hs rfl nofun (hS'.enter ⟨hS.staged.1, hS.staged.2, by simp⟩)
  | command S c hd hp hs =>
    have hS := hat hs hp
    have hS' : SessionCoherent s.cfg .cmdPrompt { S with cmdHead := some hd } := { hS with }
    exact hc.resume hs rfl nofun (hS'.enter ⟨hS.staged, by simp⟩)
  | exit S hp hs =>
    have hS := hat hs hp
    exact hc.resume hs rfl nofun (hS.conclude nofun (.inr ⟨rfl, hS.staged⟩))
  | cancel S hp hs =>
    have hS := hc.record S hs
    have hmode : S.mode = .program := by
      rcases hp with hp | hp | hp
      · exact (hat hs hp).staged
      · exact (hat hs hp).staged
      · exact (hat hs hp).staged.1
    have hundecided : s.phase.undecided := by rcases hp with hp | hp | hp <;> rw [hp] <;> decide
    exact hc.resume hs rfl nofun (hS.conclude nofun (.inr ⟨rfl, hmode⟩) hundecided)

/-- START in IDLE answers the state it leaves (R313, R315). -/
theorem exec_start_idle {s : State} (m : Mode) (hp : s.phase = .idle) : exec (.start m) s = .next (started s m) := by
  simp [exec, execStart, hp]

/-- A step ran the instruction of a command, or, with none pending, the sequencer's START in the mode of the cadence where it
is due (R312), and STEP elsewhere. -/
theorem step_next_cases {s t : State} (h : Machine.step s = .next t) :
    (∃ i cs, s.commands ≠ [] ∧ exec i { s with commands := cs } = .next t) ∨
    (s.commands = [] ∧ sequencerDue s ∧ t = started { s with daemonCycle := true } (daemonMode s.counter)) ∨
    (s.commands = [] ∧ exec .step s = .next t) := by
  obtain hcommand | ⟨hnone, hexec⟩ := step_exec h
  · exact .inl hcommand
  · by_cases hdue : sequencerDue s
    · rw [ownInstr, if_pos hdue, claimCycle_due hdue,
        exec_start_idle (s := { s with daemonCycle := true }) _ hdue.1] at hexec
      cases hexec
      exact .inr (.inl ⟨hnone, hdue, rfl⟩)
    · rw [ownInstr, if_neg hdue, claimCycle_not_due hdue] at hexec
      exact .inr (.inr ⟨hnone, hexec⟩)

/-- Settles O46: an instruction keeps a coherent state coherent, and the sequencer's START opens a daemon cycle where its
regime and the cadence ask for one. -/
theorem everyStepKeepsCoherence : Obligations.EveryStepKeepsCoherence := by
  intro s t hc hstep
  obtain ⟨i, cs, -, hexec⟩ | ⟨-, hdue, rfl⟩ | ⟨-, hexec⟩ := step_next_cases hstep
  · exact (exec_move hexec).coherent { hc with }
  · exact started_coherent hc.layout hc.unique fun _ => ⟨hdue.2.1, rfl⟩
  · exact (exec_move hexec).coherent hc

end Sys2Proof.Machine
end

section
/-! Support and proofs. Noninterference of the last cause and the trace (R41, R52): two runs whose states agree up to both
stay so through every operation of Machine/Ops.lean; each rule is a composition of those operations. -/

namespace Sys2Proof.Machine

/-- The record with another last cause. -/
def Session.withCause (S : Session) (c : Option ErrorKind) : Session := { S with lastCause := c }

/-- The states `u` and `u'` of two runs that began at `t` and `t'`: the same later events, and the same state up to what no rule
reads. -/
def Abreast (t t' u u' : State) : Prop := SameFromHere t t' (.next u) (.next u')

/-- What agreement up to `lastCause` and trace says field by field. -/
theorem unobserved_eq_iff {u u' : State} : unobserved u = unobserved u' ↔
    u.cfg = u'.cfg ∧ u.phase = u'.phase ∧ u.session.map (·.withCause none) = u'.session.map (·.withCause none) ∧
      u.registry = u'.registry ∧ u.counter = u'.counter ∧ u.daemonCycle = u'.daemonCycle ∧ u.commands = u'.commands ∧
      u.draws = u'.draws ∧ u.output = u'.output := by
  simp [unobserved, eraseCause, Session.withCause]

/-- Records that agree up to the last cause differ in nothing else. -/
theorem exists_withCause {S S' : Session} (h : S.withCause none = S'.withCause none) : ∃ c, S' = S.withCause c := by
  cases S
  cases S'
  simp only [Session.withCause, Session.mk.injEq] at h
  exact ⟨_, by simp [Session.withCause, h]; rfl⟩

theorem Abreast.refl {t t' : State} (h : unobserved t = unobserved t') : Abreast t t' t t' := ⟨[], by simp, by simp, h⟩

section
variable {t t' u u' : State} (h : Abreast t t' u u')
include h

theorem Abreast.unobserved_eq : unobserved u = unobserved u' := by
  obtain ⟨-, -, -, hu⟩ := h
  exact hu

theorem Abreast.cfg_eq : u.cfg = u'.cfg := by
  obtain ⟨hcfg, -⟩ := unobserved_eq_iff.mp h.unobserved_eq
  exact hcfg

theorem Abreast.phase_eq : u.phase = u'.phase := by
  obtain ⟨-, hphase, -⟩ := unobserved_eq_iff.mp h.unobserved_eq
  exact hphase

theorem Abreast.registry_eq : u.registry = u'.registry := by
  obtain ⟨-, -, -, hreg, -⟩ := unobserved_eq_iff.mp h.unobserved_eq
  exact hreg

theorem Abreast.draws_eq : u.draws = u'.draws := by
  obtain ⟨-, -, -, -, -, -, -, hdraws, -⟩ := unobserved_eq_iff.mp h.unobserved_eq
  exact hdraws

/-- Appending the same events and making the same change to the rest keeps two runs abreast. -/
theorem Abreast.update {v v' : State} (es : List Event) (hv : v.trace = u.trace ++ es) (hv' : v'.trace = u'.trace ++ es)
    (heq : unobserved u = unobserved u' → unobserved v = unobserved v') : Abreast t t' v v' := by
  obtain ⟨es₀, hu, hu', hun⟩ := h
  exact ⟨es₀ ++ es, by simp [hv, hu], by simp [hv', hu'], heq hun⟩

theorem Abreast.record (e : Event) : Abreast t t' (u.record e) (u'.record e) :=
  h.update [e] rfl rfl (by simp [unobserved_eq_iff])

theorem Abreast.send (bs : Bytes) : Abreast t t' (u.send bs) (u'.send bs) := h.record (.tx bs)

theorem Abreast.moveTo (p : Phase) : Abreast t t' (u.moveTo p) (u'.moveTo p) :=
  h.update [] (by simp) (by simp) (by simp +contextual [unobserved_eq_iff])

theorem Abreast.answer (o : Output) : Abreast t t' (u.answer o) (u'.answer o) :=
  h.update [] (by simp) (by simp) (by simp +contextual [unobserved_eq_iff])

theorem Abreast.commit (reg : List Entry) : Abreast t t' (u.commit reg) (u'.commit reg) :=
  h.update [] (by simp) (by simp) (by simp +contextual [unobserved_eq_iff])

theorem Abreast.setSession {S S' : Session} (hS : S.withCause none = S'.withCause none) :
    Abreast t t' (u.setSession S) (u'.setSession S') :=
  h.update [] (by simp) (by simp) (by simp +contextual [unobserved_eq_iff, hS])

theorem Abreast.publishAll : Abreast t t' u.publishAll u'.publishAll := by
  have hreg := h.registry_eq
  exact h.update _ rfl (by simp [hreg]) (by simp [unobserved_eq_iff])

theorem Abreast.raiseError (k : ErrorKind) {S S' : Session} (hS : S.withCause none = S'.withCause none) :
    Abreast t t' (raiseError k S u) (raiseError k S' u') :=
  (h.setSession (by simp_all [Session.withCause])).moveTo .error

theorem Abreast.draw : Abreast t t' { u with draws := u.draws + 1 } { u' with draws := u'.draws + 1 } :=
  h.update [] (by simp) (by simp) (by simp +contextual [unobserved_eq_iff])

end


/-- A rule that reads a field of the record, on the same field of both. -/
theorem sameFromHere_onField {t t' : State} {α : Type} (f : StagedField) (x : Option α) {rule rule' : α → Result}
    (hrule : ∀ a, SameFromHere t t' (rule a) (rule' a)) : SameFromHere t t' (onField f x rule) (onField f x rule') := by
  cases x with
  | none => rfl
  | some a => exact hrule a

section
variable {t t' s s' : State} (h : Abreast t t' s s')
include h

/-- A rule that reads the record: both runs have one, or both fault. -/
theorem Abreast.onSession {rule rule' : Session → Result}
    (hrule : ∀ S c, SameFromHere t t' (rule S) (rule' (S.withCause c))) :
    SameFromHere t t' (onSession s rule) (onSession s' rule') := by
  obtain ⟨-, -, hsession, -⟩ := unobserved_eq_iff.mp h.unobserved_eq
  unfold Machine.onSession
  cases hs : s.session with
  | none =>
    have hs' : s'.session = none := by simpa [hs] using hsession.symm
    simp [hs', SameFromHere]
  | some S =>
    obtain ⟨S', hs', hS⟩ : ∃ S', s'.session = some S' ∧ S'.withCause none = S.withCause none := by
      simpa [hs] using hsession.symm
    obtain ⟨c, rfl⟩ := exists_withCause hS.symm
    simpa [hs'] using hrule S c

theorem Abreast.discEntryStep : SameFromHere t t' (discEntryStep s) (discEntryStep s') := (h.send _).moveTo _

theorem Abreast.identTxStep : SameFromHere t t' (identTxStep s) (identTxStep s') := (h.send _).moveTo _

theorem Abreast.discFinalStep : SameFromHere t t' (discFinalStep s) (discFinalStep s') := (h.send _).moveTo _

theorem Abreast.identRxStep (r : Bytes) : SameFromHere t t' (identRxStep r s) (identRxStep r s') := by
  refine h.onSession fun S c => ?_
  have hr := h.record (.rx r)
  rw [← h.cfg_eq]
  dsimp only
  split
  · exact hr.raiseError _ rfl
  · split
    · exact (hr.setSession rfl).moveTo _
    · split
      · exact (hr.setSession rfl).moveTo _
      · exact (hr.setSession rfl).moveTo _

theorem Abreast.negTxStep : SameFromHere t t' (negTxStep s) (negTxStep s') := by
  refine h.onSession fun S c => sameFromHere_onField .baud S.baud fun z => ?_
  rw [← h.cfg_eq]
  exact (h.send _).moveTo _

theorem Abreast.challengeBranch (S : Session) (c : Option ErrorKind) :
    Abreast t t' (challengeBranch S s) (challengeBranch (S.withCause c) s') := by
  unfold Machine.challengeBranch
  rw [← h.cfg_eq]
  change Abreast t t' _ (if S.mode ≠ .program then _ else if S.password = none then _ else
    if S.retries < s.cfg.retryLimit then _ else _)
  split
  · exact h.raiseError _ rfl
  · split
    · exact ((h.setSession rfl).record _).moveTo _
    · split
      · exact (h.setSession rfl).moveTo _
      · exact h.raiseError _ rfl

theorem Abreast.respRxStep (r : Bytes) : SameFromHere t t' (respRxStep r s) (respRxStep r s') := by
  refine h.onSession fun S c => ?_
  have hr := h.record (.rx r)
  rw [← h.cfg_eq]
  dsimp only
  split
  · exact hr.raiseError _ rfl
  · cases classify (decodeFrame r) with
    | passwordChallenge => exact hr.challengeBranch { S with head := (decodeFrame r).head } c
    | nak => exact (hr.setSession rfl).moveTo _
    | timeout => exact (hr.setSession rfl).moveTo _
    | ack => exact (hr.setSession rfl).moveTo _
    | unexpectedHead => exact hr.raiseError _ rfl
    | data =>
      dsimp only
      split
      · exact (hr.setSession rfl).moveTo _
      · exact hr.raiseError _ rfl

theorem Abreast.pwTxStep : SameFromHere t t' (pwTxStep s) (pwTxStep s') :=
  h.onSession fun S _ => sameFromHere_onField .password S.password fun _ => (h.send _).moveTo _

theorem Abreast.declareOnce (S : Session) (c : Option ErrorKind) :
    Abreast t t' (declareOnce S s) (declareOnce (S.withCause c) s') := by
  unfold Machine.declareOnce
  rw [← h.registry_eq]
  change Abreast t t' _ (if declaresSchema S then _ else _)
  split
  · exact h.record _
  · exact h

theorem Abreast.dataStep : SameFromHere t t' (dataStep s) (dataStep s') := by
  refine h.onSession fun S c => sameFromHere_onField .pending S.pending fun body => ?_
  rw [← h.cfg_eq, ← h.registry_eq]
  split
  · exact h.raiseError _ rfl
  · exact ((((h.declareOnce S c).commit _).publishAll).setSession rfl).moveTo _

theorem Abreast.xferExitStep : SameFromHere t t' (xferExitStep s) (xferExitStep s') := by
  refine h.onSession fun S c => ?_
  change SameFromHere t t' _ (if commandMode S then _ else _)
  split
  · exact (h.record _).moveTo _
  · exact (h.setSession rfl).moveTo _

theorem Abreast.cmdTxStep : SameFromHere t t' (cmdTxStep s) (cmdTxStep s') :=
  h.onSession fun S _ => sameFromHere_onField .cmdHead S.cmdHead fun _ => sameFromHere_onField .cmdBody S.cmdBody fun _ =>
    ((h.send _).setSession rfl).moveTo _

theorem Abreast.retryStep : SameFromHere t t' (retryStep s) (retryStep s') := by
  refine h.onSession fun S c => ?_
  rw [← h.cfg_eq]
  change SameFromHere t t' _ (if S.retries < s.cfg.retryLimit then _ else _)
  split
  · exact (h.setSession rfl).moveTo _
  · exact h.raiseError _ rfl

theorem Abreast.reportStep : SameFromHere t t' (reportStep s) (reportStep s') :=
  h.onSession fun S _ => sameFromHere_onField .errKind S.errKind fun _ => ((h.record _).setSession rfl).moveTo _

theorem Abreast.doneStep : SameFromHere t t' (doneStep s) (doneStep s') :=
  h.onSession fun S c => sameFromHere_onField .result S.result fun r =>
    h.update [.cycleDone r] rfl rfl (by simp +contextual [unobserved_eq_iff])

/-- The step of the current phase (R241). -/
theorem Abreast.internalStep (r : Bytes) : SameFromHere t t' (internalStep r s) (internalStep r s') := by
  unfold Machine.internalStep
  rw [← h.phase_eq]
  cases s.phase with
  | idle | awaitPassword | cmdPrompt | awaitCmdText => exact h
  | discEntry => exact h.discEntryStep
  | identTx => exact h.identTxStep
  | identRx => exact h.identRxStep r
  | negTx => exact h.negTxStep
  | respRx => exact h.respRxStep r
  | pwTx => exact h.pwTxStep
  | data => exact h.dataStep
  | xferExit => exact h.xferExitStep
  | cmdTx => exact h.cmdTxStep
  | discFinal => exact h.discFinalStep
  | retry => exact h.retryStep
  | error => exact h.reportStep
  | done => exact h.doneStep

theorem Abreast.receive (r : Bytes) : SameFromHere t t' (receive r s) (receive r s') := by
  rw [receive_eq, receive_eq, ← h.phase_eq]
  split
  · exact h.internalStep r
  · rfl

/-- A message row: the same record but for the last cause decides whether it is due. -/
theorem Abreast.whenDue {due due' : Session → Prop} [DecidablePred due] [DecidablePred due'] {rule : State → Result}
    (hdue : ∀ S c, due' (S.withCause c) ↔ due S) (hrule : SameFromHere t t' (rule s) (rule s')) :
    SameFromHere t t' (whenDue due rule s) (whenDue due' rule s') := by
  refine h.onSession fun S c => ?_
  simp only [hdue]
  split
  · exact hrule
  · rfl

theorem Abreast.execDisconnect : SameFromHere t t' (execDisconnect s) (execDisconnect s') := by
  unfold Machine.execDisconnect
  rw [← h.phase_eq]
  split
  · exact h.discEntryStep
  · exact h.discFinalStep
  · rfl

theorem Abreast.execIdent : SameFromHere t t' (execIdent s) (execIdent s') := by
  unfold Machine.execIdent
  rw [← h.phase_eq]
  split
  · exact h.identTxStep
  · rfl

theorem Abreast.execOptsel (z y : Byte) : SameFromHere t t' (execOptsel z y s) (execOptsel z y s') := by
  unfold Machine.execOptsel
  rw [← h.phase_eq, ← h.cfg_eq]
  split
  · exact h.whenDue (fun _ _ => .rfl) h.negTxStep
  · rfl

theorem Abreast.execOptselEncoded (z y : Byte) :
    SameFromHere t t' (execOptselEncoded z y s) (execOptselEncoded z y s') := by
  unfold Machine.execOptselEncoded
  rw [← h.phase_eq, ← h.cfg_eq]
  split
  · exact h.whenDue (fun _ _ => .rfl) h.negTxStep
  · rfl

theorem Abreast.execPassword (pw : Bytes) : SameFromHere t t' (execPassword pw s) (execPassword pw s') := by
  unfold Machine.execPassword
  rw [← h.phase_eq]
  split
  · exact h.whenDue (fun _ _ => .rfl) h.pwTxStep
  · rfl

theorem Abreast.execRead (text : Bytes) : SameFromHere t t' (execRead text s) (execRead text s') := by
  unfold Machine.execRead
  rw [← h.phase_eq]
  split
  · exact h.whenDue (fun _ _ => .rfl) h.cmdTxStep
  · rfl

theorem Abreast.execWrite (text : Bytes) : SameFromHere t t' (execWrite text s) (execWrite text s') := by
  unfold Machine.execWrite
  rw [← h.phase_eq]
  split
  · exact h.whenDue (fun _ _ => .rfl) h.cmdTxStep
  · rfl

/-- A registry writer runs in both or is refused in both (R85). -/
theorem Abreast.duringCycle {rule rule' : Result} (hrule : SameFromHere t t' rule rule') :
    SameFromHere t t' (duringCycle s rule) (duringCycle s' rule') := by
  unfold Machine.duringCycle
  rw [← h.phase_eq]
  split
  · rfl
  · exact hrule

theorem Abreast.execRegUpdate (k v : Bytes) : SameFromHere t t' (execRegUpdate k v s) (execRegUpdate k v s') := by
  unfold Machine.execRegUpdate
  rw [← h.registry_eq]
  exact h.duringCycle ((h.commit _).answer _)

theorem Abreast.execApplyFrame (body : Bytes) : SameFromHere t t' (execApplyFrame body s) (execApplyFrame body s') := by
  unfold Machine.execApplyFrame
  rw [← h.registry_eq, ← h.cfg_eq]
  refine h.duringCycle ?_
  split
  · exact (h.commit _).answer _
  · exact h.answer _

theorem Abreast.execStatusParse (text : Bytes) : SameFromHere t t' (execStatusParse text s) (execStatusParse text s') := by
  unfold Machine.execStatusParse
  split
  · exact h.answer _
  · exact h.answer _

theorem Abreast.execRegSnapshot : SameFromHere t t' (execRegSnapshot s) (execRegSnapshot s') := by
  unfold Machine.execRegSnapshot
  rw [← h.registry_eq]
  exact h.answer _

theorem Abreast.execStep : SameFromHere t t' (execStep s) (execStep s') := by
  unfold Machine.execStep
  rw [← congrArg Phase.reads h.phase_eq, ← congrArg Config.freeRead h.draws_eq]
  split
  · exact h.draw.internalStep _
  · exact h.internalStep []

theorem Abreast.execStart (m : Mode) : SameFromHere t t' (execStart m s) (execStart m s') := by
  unfold Machine.execStart
  rw [← h.phase_eq]
  split
  · exact ((h.record _).setSession rfl).moveTo _
  · rfl

theorem Abreast.execInput (bs : Bytes) : SameFromHere t t' (execInput bs s) (execInput bs s') := by
  unfold Machine.execInput
  rw [← h.phase_eq]
  split
  · exact h.onSession fun _ _ => ((h.record _).setSession rfl).moveTo _
  · exact h.onSession fun _ _ => ((h.record _).setSession rfl).moveTo _
  · rfl

theorem Abreast.chooseCommand (c : Choice) (hd : CmdHead) :
    SameFromHere t t' (chooseCommand c hd s) (chooseCommand c hd s') :=
  h.onSession fun _ _ => (((h.record _).setSession rfl).record _).moveTo _

theorem Abreast.endSession (e : Event) (r : CycleResult) : SameFromHere t t' (endSession e r s) (endSession e r s') :=
  h.onSession fun _ _ => ((h.record _).setSession rfl).moveTo _

theorem Abreast.execChoice (c : Choice) : SameFromHere t t' (execChoice c s) (execChoice c s') := by
  unfold Machine.execChoice
  rw [← h.phase_eq]
  split
  · cases c with
    | read => exact h.chooseCommand .read .r1
    | write => exact h.chooseCommand .write .w1
    | exit => exact h.endSession _ _
  · rfl

theorem Abreast.execCancel : SameFromHere t t' (execCancel s) (execCancel s') := by
  unfold Machine.execCancel
  rw [← h.phase_eq]
  split
  · exact h.endSession _ _
  · exact h.endSession _ _
  · exact h.endSession _ _
  · rfl

theorem Abreast.execError : SameFromHere t t' (execError s) (execError s') := by
  unfold Machine.execError
  rw [← h.phase_eq]
  split
  · exact h.reportStep
  · rfl

/-- Every instruction keeps two runs abreast, whatever last cause and trace they hold. -/
theorem Abreast.exec (i : Instr) : SameFromHere t t' (exec i s) (exec i s') := by
  cases i with
  | disconnect => exact h.execDisconnect
  | ident => exact h.execIdent
  | optsel z y => exact h.execOptsel z y
  | optselEncoded z y => exact h.execOptselEncoded z y
  | password pw => exact h.execPassword pw
  | read text => exact h.execRead text
  | write text => exact h.execWrite text
  | rxIdentReply r | rxP0 r | rxNak r | rxTimeout r | rxAck r | rxUnexpectedHead r | rxDataValid r | rxDataInvalid r =>
    exact h.receive r
  | encode hd b | checksum bs | decode bs | statusDecode w | parseLine l | parseBody b | classify f => exact h.answer _
  | statusParse text => exact h.execStatusParse text
  | regUpdate k v => exact h.execRegUpdate k v
  | regSnapshot => exact h.execRegSnapshot
  | applyFrame body => exact h.execApplyFrame body
  | step => exact h.execStep
  | start m => exact h.execStart m
  | input bs => exact h.execInput bs
  | choice c => exact h.execChoice c
  | cancel => exact h.execCancel
  | error => exact h.execError

end

/-- Settles O53: two states that agree up to last cause and trace are abreast of themselves, and every instruction keeps them
so. -/
theorem noRuleReadsCauseOrTrace : Obligations.NoRuleReadsCauseOrTrace := by
  intro i s s' h
  exact (Abreast.refl h).exec i

end Sys2Proof.Machine
end

section
/-! Support and proofs. The events an instruction appends to the trace, said once for each kind of event: which move records
it, and what that move found (R52). -/

namespace Sys2Proof.Machine

open Terms

/-- The events that a step from `s` to `t` has appended. -/
def newEvents (s t : State) : List Event := t.trace.drop s.trace.length

theorem newEvents_of_append {s t : State} {es : List Event} (h : t.trace = s.trace ++ es) : newEvents s t = es := by
  simp [newEvents, h]

/-- DATA declares the schema where it is due, then publishes every entry (R262). -/
@[simp] theorem newEvents_publish (s : State) (S S' : Session) (reg : List Entry) :
    newEvents s (((((declareOnce S s).commit reg).publishAll).setSession S').moveTo .xferExit) =
      (if declaresSchema S then [.declareSchema (declarationList s.registry)] else []) ++
        (regSnapshot reg).map fun e => .publish e.1 e.2.2 := by
  simp [newEvents, declareOnce_eq]

@[simp] theorem declarations_publishes (l : List (Bytes × Kind × Bytes)) :
    declarations (l.map fun e => .publish e.1 e.2.2) = 0 := by
  simp [declarations]

@[simp] theorem declarations_cons_declareSchema (l : List (Bytes × Kind)) (es : List Event) :
    declarations (.declareSchema l :: es) = declarations es + 1 := by
  simp [declarations]

/-- The declared list is the layout (R215). -/
theorem declarationList_eq_layout (reg : List Entry) : declarationList reg = regLayout reg := by
  simp [declarationList, regSnapshot, regLayout]

/-- Only DATA declares the schema, once, where it was due, and it leaves the mark of it (R263). -/
theorem SessionMove.declareSchema_mem {r : Bytes} {s t : State} {l : List (Bytes × Kind)} (h : SessionMove r s t)
    (hl : .declareSchema l ∈ newEvents s t) :
    declarations (newEvents s t) = 1 ∧ s.phase = .data ∧ l = regLayout s.registry ∧ ∃ S S', s.session = some S ∧
      S.isShortCycle = false ∧ S.schemaDeclared = false ∧ t.session = some S' ∧ S'.schemaDeclared = true := by
  cases h with
  | publish S b reg hp hs =>
    rw [newEvents_publish] at hl ⊢
    by_cases hdue : declaresSchema S = true
    · obtain rfl : l = declarationList s.registry := by simpa [hdue] using hl
      have ⟨hlong, hfirst⟩ : S.isShortCycle = false ∧ S.schemaDeclared = false := by simpa [declaresSchema] using hdue
      exact ⟨by simp [hdue], hp, declarationList_eq_layout _, S, _, hs, hlong, hfirst, rfl, by simp [hdue]⟩
    · simp [hdue] at hl
  | _ => simp [newEvents] at hl

theorem ExecMove.declareSchema_mem {i : Instr} {s t : State} {l : List (Bytes × Kind)} (h : ExecMove s i t)
    (hl : .declareSchema l ∈ newEvents s t) :
    declarations (newEvents s t) = 1 ∧ s.phase = .data ∧ l = regLayout s.registry ∧ ∃ S S', s.session = some S ∧
      S.isShortCycle = false ∧ S.schemaDeclared = false ∧ t.session = some S' ∧ S'.schemaDeclared = true := by
  cases h with
  | session _ _ _ _ hmove => exact hmove.declareSchema_mem hl
  | drawn _ _ _ hmove => exact hmove.declareSchema_mem hl
  | _ => simp [newEvents] at hl

/-- Settles O58: an event that declares is the DATA step's, and no writer clears the mark it leaves. -/
theorem schemaIsDeclaredAtMostOnceACycle : Obligations.SchemaIsDeclaredAtMostOnceACycle := by
  intro i s t es hexec htrace
  obtain rfl := newEvents_of_append htrace
  refine ⟨fun l hl => (exec_move hexec).declareSchema_mem hl, fun S S' hp hs ht hd => ?_⟩
  obtain ⟨S₀, hs₀, hw⟩ := (exec_move hexec).writtenByRules hp ht
  obtain rfl : S₀ = S := Option.some.inj (hs₀.symm.trans hs)
  exact hw.declaredStays hd

/-- The counter advances by the completed cycles of a daemon's, in the `DONE` step (R317). -/
theorem SessionMove.counter_eq_add {r : Bytes} {s t : State} (h : SessionMove r s t) :
    t.counter = s.counter + if s.daemonCycle then cyclesDone (newEvents s t) else 0 := by
  cases h with
  | finish S c => cases hd : s.daemonCycle <;> simp [newEvents, cyclesDone]
  | publish S b reg =>
    rw [newEvents_publish]
    cases hd : declaresSchema S <;> simp [cyclesDone]
  | _ => simp [newEvents, cyclesDone]

theorem ExecMove.counter_eq_add {i : Instr} {s t : State} (h : ExecMove s i t) :
    t.counter = s.counter + if s.daemonCycle then cyclesDone (newEvents s t) else 0 := by
  cases h with
  | session _ _ _ _ hmove => exact hmove.counter_eq_add
  | drawn _ _ _ hmove => exact hmove.counter_eq_add
  | _ => simp [newEvents, cyclesDone]

/-- No step of a phase records a START. -/
theorem SessionMove.start_notMem {r : Bytes} {s t : State} (h : SessionMove r s t) (m : Mode) :
    .start m ∉ newEvents s t := by
  cases h with
  | publish S b reg =>
    rw [newEvents_publish]
    cases declaresSchema S <;> simp
  | _ => simp [newEvents]

/-- A START is recorded by the command START alone, in IDLE (R313). -/
theorem ExecMove.start_mem {i : Instr} {s t : State} {m : Mode} (h : ExecMove s i t) (hm : .start m ∈ newEvents s t) :
    i = .start m ∧ t.daemonCycle = s.daemonCycle := by
  cases h with
  | session _ _ _ _ hmove => exact absurd hm (hmove.start_notMem m)
  | drawn _ _ _ hmove => exact absurd hm (hmove.start_notMem m)
  | start m' => simpa [newEvents, eq_comm] using hm
  | _ => simp [newEvents] at hm

/-- The bytes are an option-select message with digit y, raw or encoded (R110). -/
def IsOptsel (m : Bytes) (y : Byte) : Prop :=
  ∃ z, m = [0x06, 0x30, z, y, 0x0D, 0x0A] ∨ ∃ c, m = [0x02, 0x06, 0x30, z, y, 0x0D, 0x0A, 0x03, c]

/-- An option select begins with ACK or STX. -/
theorem IsOptsel.head {m : Bytes} {y : Byte} (h : IsOptsel m y) : m.head? = some ackByte ∨ m.head? = some stx := by
  obtain ⟨z, rfl | ⟨c, rfl⟩⟩ := h
  · exact .inl rfl
  · exact .inr rfl

/-- A frame with a head begins with SOH (R102), so it is no option select. -/
theorem not_isOptsel_encodeFrame {h b : Bytes} {y : Byte} (hh : h ≠ []) : ¬IsOptsel (encodeFrame h b) y := by
  intro ho
  have hsoh : (encodeFrame h b).head? = some soh := by simp [encodeFrame, frameBytes, hh]
  have := ho.head
  simp [hsoh] at this

theorem not_isOptsel_commandMsg (h : CmdHead) (t : Bytes) (y : Byte) : ¬IsOptsel (commandMsg h t) y :=
  not_isOptsel_encodeFrame (by cases h <;> simp [cmdHeadBytes])

theorem not_isOptsel_identMsg (y : Byte) : ¬IsOptsel identMsg y := fun h => by
  simpa [identMsg] using h.head

/-- The digit of an option select is the one it was sent with, in both framings. -/
theorem digit_of_isOptsel {f : NegFraming} {z d y : Byte} (h : IsOptsel (negotiationMsg f z d) y) : d = y := by
  obtain ⟨z', h | ⟨c, h⟩⟩ := h <;> cases f <;>
    simp [negotiationMsg, optselMsg, optselEncodedMsg, encodeFrame, frameBytes] at h
  · exact h.2
  · exact h.2.1

/-- An option select is sent by NEG_TX, with the mode digit of the record (R111, R246). -/
theorem SessionMove.optsel_mem {r : Bytes} {s t : State} {m : Bytes} {y : Byte} (h : SessionMove r s t)
    (hm : .tx m ∈ newEvents s t) (ho : IsOptsel m y) : ∃ S, s.session = some S ∧ y = modeDigit S := by
  cases h with
  | negTx S z hp hs =>
    obtain rfl : m = _ := by simpa [newEvents] using hm
    exact ⟨S, hs, (digit_of_isOptsel ho).symm⟩
  | discEntry | discFinal =>
    obtain rfl : m = disconnectMsg := by simpa [newEvents] using hm
    exact absurd ho (not_isOptsel_encodeFrame (by simp))
  | identTx =>
    obtain rfl : m = identMsg := by simpa [newEvents] using hm
    exact absurd ho (not_isOptsel_identMsg y)
  | pwTx S pw =>
    obtain rfl : m = passwordMsg pw := by simpa [newEvents] using hm
    exact absurd ho (not_isOptsel_encodeFrame (by simp))
  | cmdTx S a b =>
    obtain rfl : m = commandMsg a b := by simpa [newEvents] using hm
    exact absurd ho (not_isOptsel_commandMsg a b y)
  | publish S b reg =>
    rw [newEvents_publish] at hm
    cases hd : declaresSchema S <;> simp [hd] at hm
  | _ => simp [newEvents] at hm

theorem ExecMove.optsel_mem {i : Instr} {s t : State} {m : Bytes} {y : Byte} (h : ExecMove s i t)
    (hm : .tx m ∈ newEvents s t) (ho : IsOptsel m y) : ∃ S, s.session = some S ∧ y = modeDigit S := by
  cases h with
  | session _ _ _ _ hmove => exact hmove.optsel_mem hm ho
  | drawn _ _ _ hmove => exact hmove.optsel_mem hm ho
  | _ => simp [newEvents] at hm

/-- The cadence by the counter (R312). -/
theorem daemonMode_eq (n : Nat) : daemonMode n = if n % 5 = 0 then .fullRead else .limitedRead := rfl

/-- In a daemon cycle the short ones are those between every fifth (R312, R314). -/
theorem State.Coherent.isShortCycle_daemon {s : State} {S : Session} (hc : s.Coherent) (hd : s.daemonCycle = true)
    (hs : s.session = some S) : S.isShortCycle = decide (s.counter % 5 ≠ 0) := by
  rw [(hc.record S hs).shortCycle, hc.cadence hd S hs, daemonMode_eq]
  split <;> simp [shortCycleOf, *]

/-- The mode digit of a daemon cycle's first handshake (R318). -/
theorem State.Coherent.modeDigit_daemon {s : State} {S : Session} (hc : s.Coherent) (hd : s.daemonCycle = true)
    (hs : s.session = some S) (hfirst : S.restarted = false) :
    modeDigit S = if s.counter % 5 = 0 then 0x30 else 0x36 := by
  have hflag : S.readFlag = 0x30 := by
    rw [(hc.record S hs).readFlag, hc.cadence hd S hs, daemonMode_eq]
    split <;> rfl
  simp [modeDigit, hc.isShortCycle_daemon hd hs, hfirst, hflag]

/-- What a daemon cycle declares and sends follows the cadence (R318). -/
theorem ExecMove.followsCadence {i : Instr} {s t : State} (h : ExecMove s i t) (hc : s.Coherent) (hd : s.daemonCycle = true) :
    (∀ l, .declareSchema l ∈ newEvents s t → s.counter % 5 = 0) ∧
    (∀ S z y c, s.session = some S → S.restarted = false →
      .tx [0x06, 0x30, z, y, 0x0D, 0x0A] ∈ newEvents s t ∨
        .tx [0x02, 0x06, 0x30, z, y, 0x0D, 0x0A, 0x03, c] ∈ newEvents s t →
      y = if s.counter % 5 = 0 then 0x30 else 0x36) := by
  refine ⟨fun l hl => ?_, fun S z y c hs hfirst hm => ?_⟩
  · obtain ⟨-, -, -, S, -, hs, hlong, -⟩ := h.declareSchema_mem hl
    simpa [hc.isShortCycle_daemon hd hs] using hlong
  · obtain ⟨S₀, hs₀, rfl⟩ : ∃ S, s.session = some S ∧ y = modeDigit S := by
      rcases hm with hm | hm
      · exact h.optsel_mem hm ⟨z, .inl rfl⟩
      · exact h.optsel_mem hm ⟨z, .inr ⟨c, rfl⟩⟩
    obtain rfl : S₀ = S := Option.some.inj (hs₀.symm.trans hs)
    exact hc.modeDigit_daemon hd hs hfirst

/-- Settles O49: a command's instruction and the block's own step count and follow the cadence as above; the sequencer's START
completes no cycle, and finds no daemon cycle running. -/
theorem counterCountsCompletedDaemonCycles : Obligations.CounterCountsCompletedDaemonCycles := by
  intro s t es hstep htrace
  obtain rfl := newEvents_of_append htrace
  obtain ⟨i, cs, hpending, hexec⟩ | ⟨hnone, hdue, rfl⟩ | ⟨hnone, hexec⟩ := step_next_cases hstep
  · have hmove := exec_move hexec
    refine ⟨hmove.counter_eq_add, fun m hm hd => ?_, fun hc => hmove.followsCadence { hc with }⟩
    obtain ⟨-, ht⟩ := hmove.start_mem hm
    simp [ht, hd, hpending]
  · have hev : newEvents s (started { s with daemonCycle := true } (daemonMode s.counter)) =
      [.start (daemonMode s.counter)] := by simp [newEvents]
    rw [hev]
    refine ⟨by simp [cyclesDone], fun m hm _ => ?_, fun hc hd => absurd hdue.1 (hc.daemonOutsideIdle hd)⟩
    obtain rfl : m = daemonMode s.counter := by simpa using hm
    exact ⟨by simp [hnone], fun _ => daemonMode_eq _⟩
  · have hmove := exec_move hexec
    refine ⟨hmove.counter_eq_add, fun m hm => ?_, hmove.followsCadence⟩
    obtain ⟨hi, -⟩ := hmove.start_mem hm
    cases hi

end Sys2Proof.Machine
end

section
/-! Support and proofs. Raises (R332, R333, R334), and the registry of a read cycle that fails (R48): an invariant of the run
says that no error follows the commit of a read cycle. -/

namespace Sys2Proof.Machine

open Terms

/-- A phase's step enters ERROR only by a raise of the table of R332, which writes neither registry nor Sink and sends
nothing. -/
theorem SessionMove.raise {r : Bytes} {s t : State} (h : SessionMove r s t) (hs : s.phase ≠ .error) (ht : t.phase = .error) :
    t.registry = s.registry ∧ (t.trace = s.trace ∨ ∃ r, t.trace = s.trace ++ [.rx r]) ∧
      ∃ S k, t.session = some S ∧ S.errKind = some k ∧ k ∈ canRaise s.phase := by
  cases h with
  | wait => exact absurd ht hs
  | overflow S hp =>
    exact ⟨rfl, .inr ⟨r, rfl⟩, _, _, rfl, rfl, by rcases hp with hp | hp <;> simp [hp, canRaise]⟩
  | challengeRefused S hd hp | challengeExhausted S hd hp =>
    exact ⟨rfl, .inr ⟨r, rfl⟩, _, _, rfl, rfl, by simp [hp, canRaise]⟩
  | respRaise S hd k hk hp =>
    exact ⟨rfl, .inr ⟨r, rfl⟩, _, _, rfl, rfl, by rcases hk with rfl | rfl <;> simp [hp, canRaise]⟩
  | malformed S b hp | exhausted S hp => exact ⟨rfl, .inl rfl, _, _, rfl, rfl, by simp [hp, canRaise]⟩
  | _ => cases ht

theorem ExecMove.raise {i : Instr} {s t : State} (h : ExecMove s i t) (hs : s.phase ≠ .error) (ht : t.phase = .error) :
    t.registry = s.registry ∧ (t.trace = s.trace ∨ ∃ r, t.trace = s.trace ++ [.rx r]) ∧
      ∃ S k, t.session = some S ∧ S.errKind = some k ∧ k ∈ canRaise s.phase := by
  cases h with
  | answer | write => exact absurd ht hs
  | session _ _ _ _ hmove => exact hmove.raise hs ht
  | drawn _ _ _ hmove => exact hmove.raise hs ht
  | _ => cases ht

/-- A received row runs as the read result it holds. -/
theorem exec_decodeRx (b : Bool) (r : Bytes) (s : State) : exec (decodeRx b r) s = receive r s := by
  unfold decodeRx
  split
  · rfl
  · unfold decodeResponse
    cases responseClass r with
    | data => dsimp only; split <;> rfl
    | _ => rfl

/-- A session step with a given read result is the current phase's step. -/
theorem stepWithRead_move {r : Bytes} {s t : State} (h : stepWithRead r s = .next t) : ∃ r', SessionMove r' s t := by
  unfold stepWithRead at h
  split at h
  · rw [exec_decodeRx] at h
    exact ⟨r, receive_move h⟩
  · rename_i hreads
    simp only [exec, execStep, if_neg hreads] at h
    exact ⟨[], internalStep_move h⟩

/-- What every session step keeps holds after a run with given read results. -/
theorem runReads_invariant {P : State → Prop} (hstep : ∀ r s t, SessionMove r s t → P s → P t)
    {rs : List Bytes} {s u : State} (hrun : runReads rs s = .next u) (hs : P s) : P u := by
  induction rs generalizing s with
  | nil => cases hrun; exact hs
  | cons r rs ih =>
    unfold runReads at hrun
    split at hrun
    · obtain ⟨r', hmove⟩ := stepWithRead_move ‹_›
      exact ih hrun (hstep r' _ _ hmove hs)
    · cases hrun
    · cases hrun

/-- An error is reported by the ERROR step alone (R333). -/
theorem SessionMove.reportError_mem {r : Bytes} {s t : State} {k : ErrorKind} (h : SessionMove r s t)
    (hk : .reportError k ∈ newEvents s t) : s.phase = .error := by
  cases h with
  | report _ _ hp => exact hp
  | publish S b reg =>
    rw [newEvents_publish] at hk
    cases hd : declaresSchema S <;> simp [hd] at hk
  | _ => simp [newEvents] at hk

/-- The ERROR step goes to DONE and writes no registry (R333). -/
theorem SessionMove.of_error {r : Bytes} {s t : State} (h : SessionMove r s t) (hp : s.phase = .error) :
    t.phase = .done ∧ t.registry = s.registry := by
  cases h with
  | report => exact ⟨rfl, rfl⟩
  | _ => simp_all

/-- A step that commits goes to XFER_EXIT (R262). -/
theorem SessionMove.registry_eq_or_xferExit {r : Bytes} {s t : State} (h : SessionMove r s t) :
    t.registry = s.registry ∨ t.phase = .xferExit := by
  cases h with
  | publish => exact .inr rfl
  | _ => exact .inl rfl

/-- Past its data frames a cycle without command mode only ends: XFER_EXIT, DONE, IDLE (R266, R276). -/
theorem SessionMove.closes {r : Bytes} {s t : State} (h : SessionMove r s t)
    (hread : ∀ S, s.session = some S → commandMode S = false)
    (hp : s.phase = .xferExit ∨ s.phase = .done ∨ s.phase = .idle) :
    (t.phase = .done ∨ t.phase = .idle) ∧ t.registry = s.registry := by
  cases h with
  | readEnds => exact ⟨.inl rfl, rfl⟩
  | finish => exact ⟨.inr rfl, rfl⟩
  | wait hw => rcases hw with hw | hw | hw | hw <;> simp_all
  | overflow _ ho => rcases ho with ho | ho <;> simp_all
  | askChoice S _ hs hc => simp [hread S hs] at hc
  | _ => simp_all

/-- The trace goes on from `T`, and no event since reports an error. -/
def Unreported (T : List Event) (u : State) : Prop := ∃ es, u.trace = T ++ es ∧ ∀ k, .reportError k ∉ es

theorem Unreported.move {T : List Event} {r : Bytes} {s t : State} (hs : Unreported T s) (h : SessionMove r s t)
    (hp : s.phase ≠ .error) : Unreported T t := by
  obtain ⟨es, hes, hquiet⟩ := hs
  obtain ⟨es', hes'⟩ := h.extends.trace
  refine ⟨es ++ es', by simp [hes, hes'], fun k hk => ?_⟩
  rw [← newEvents_of_append hes'] at hk
  exact (List.mem_append.mp hk).elim (hquiet k) fun hk => hp (h.reportError_mem hk)

/-- How far a read cycle has come that began with the trace `T` and the registry `reg`: nothing committed and no error
reported; a frame committed and no error to come; or an error reported with nothing committed. -/
inductive ReadProgress (T : List Event) (reg : List Entry) (u : State) : Prop where
  | uncommitted (hquiet : Unreported T u) (hreg : u.registry = reg)
  | committed (hquiet : Unreported T u) (hp : u.phase = .xferExit ∨ u.phase = .done ∨ u.phase = .idle)
  | reported (hreg : u.registry = reg) (hp : u.phase = .done ∨ u.phase = .idle)

/-- The invariant of a read cycle's run: it is not in command mode, and it has come as far as `ReadProgress` says. -/
structure ReadCycle (T : List Event) (reg : List Entry) (u : State) : Prop where
  read : ∀ S, u.session = some S → commandMode S = false
  progress : ReadProgress T reg u

theorem SessionMove.readProgress {T : List Event} {reg : List Entry} {r : Bytes} {s t : State} (h : SessionMove r s t)
    (hs : ReadCycle T reg s) : ReadProgress T reg t := by
  obtain ⟨hread, hprogress⟩ := hs
  cases hprogress with
  | uncommitted hquiet hreg =>
    by_cases herror : s.phase = .error
    · obtain ⟨hdone, hkept⟩ := h.of_error herror
      exact .reported (hkept.trans hreg) (.inl hdone)
    · have hquiet := hquiet.move h herror
      obtain hkept | hexit := h.registry_eq_or_xferExit
      · exact .uncommitted hquiet (hkept.trans hreg)
      · exact .committed hquiet (.inl hexit)
  | committed hquiet hp =>
    have herror : s.phase ≠ .error := by rcases hp with hp | hp | hp <;> simp [hp]
    exact .committed (hquiet.move h herror) (.inr (h.closes hread hp).1)
  | reported hreg hp =>
    obtain ⟨hclosed, hkept⟩ := h.closes hread (.inr hp)
    exact .reported (hkept.trans hreg) hclosed

theorem SessionMove.readCycle {T : List Event} {reg : List Entry} {r : Bytes} {s t : State} (h : SessionMove r s t)
    (hs : ReadCycle T reg s) : ReadCycle T reg t where
  read := fun S' ht => by
    obtain ⟨S, hS, hw⟩ := h.writtenByRules ht
    rw [commandMode, hw.readFlag]
    exact hs.read S hS
  progress := h.readProgress hs

/-- START in a read mode begins such a cycle. -/
theorem readCycle_started (s : State) {m : Mode} (hm : m ≠ .program) :
    ReadCycle (started s m).trace s.registry (started s m) where
  read := by rintro _ ⟨⟩; cases m <;> simp_all [commandMode, freshSession, readFlagOf]
  progress := .uncommitted ⟨[], by simp⟩ rfl

/-- A read cycle in ERROR, or one that has reported an error, has committed nothing (R48). -/
theorem ReadCycle.registry_of_failed {T es : List Event} {reg : List Entry} {u : State} (h : ReadCycle T reg u)
    (ht : u.trace = T ++ es) (hfail : u.phase = .error ∨ ∃ k, .reportError k ∈ es) : u.registry = reg := by
  cases h.progress with
  | uncommitted _ hreg | reported hreg => exact hreg
  | committed hquiet hp =>
    obtain ⟨es', hes', hquiet⟩ := hquiet
    obtain rfl : es' = es := List.append_cancel_left (hes'.symm.trans ht)
    obtain herror | ⟨k, hk⟩ := hfail
    · simp [herror] at hp
    · exact absurd hk (hquiet k)

/-- Settles O54: a raise is one of the table's moves; a read cycle's invariant holds from START through the run. -/
theorem raisesFollowTheTable : Obligations.RaisesFollowTheTable := by
  refine ⟨fun i s t hexec hs ht => (exec_move hexec).raise hs ht, fun s t u m rs es hp hm hstart hrun htrace hfail => ?_⟩
  rw [exec_start_idle m hp] at hstart
  cases hstart
  have hcycle := runReads_invariant (fun _ _ _ hmove => hmove.readCycle) hrun (readCycle_started s hm)
  exact hcycle.registry_of_failed htrace hfail

end Sys2Proof.Machine
end

section
/-! Support and proofs. The bracketing of cycles in the trace (R81): what an instruction means for the open cycle, said once for
every move, and what that does to a well-bracketed trace. -/

namespace Sys2Proof.Machine

/-- The event neither opens nor closes a cycle. -/
def Event.inner : Event → Bool
  | .start _ | .cycleDone _ => false
  | .tx _ | .rx _ | .prompt _ | .input _ | .choice _ | .cancel => true
  | .declareSchema _ | .publish _ _ | .reportError _ => true

/-- What an instruction that leads from `s` to `t` means for the cycle: nothing, or it opens one in IDLE (R313), goes on with the
open one, or closes it (R276). -/
inductive CycleStep (s t : State) : Prop where
  | rest (htrace : t.trace = s.trace) (hphase : t.phase = s.phase)
  | opens (m : Mode) (hs : s.phase = .idle) (htrace : t.trace = s.trace ++ [.start m]) (ht : t.phase ≠ .idle)
  | goesOn (es : List Event) (hs : s.phase ≠ .idle) (htrace : t.trace = s.trace ++ es) (hes : ∀ e ∈ es, e.inner = true)
      (ht : t.phase ≠ .idle)
  | closes (c : CycleResult) (hs : s.phase ≠ .idle) (htrace : t.trace = s.trace ++ [.cycleDone c]) (ht : t.phase = .idle)

/-- The step of a phase opens no cycle, and only the `DONE` step closes one. -/
theorem SessionMove.cycleStep {r : Bytes} {s t : State} (h : SessionMove r s t) : CycleStep s t := by
  cases h with
  | wait => exact .rest rfl rfl
  | finish S c hp => exact .closes c (by simp [hp]) rfl rfl
  | publish S b reg hp =>
    refine .goesOn ((if declaresSchema S then [.declareSchema (declarationList s.registry)] else []) ++
      (regSnapshot reg).map fun e => .publish e.1 e.2.2) (by simp [hp]) (by simp [declareOnce_eq]) ?_ (by simp)
    cases declaresSchema S <;> simp [List.forall_mem_map, Event.inner, -List.mem_map]
  | malformed _ _ hp | readEnds _ hp | again _ hp | exhausted _ hp =>
    exact .goesOn [] (by simp [hp]) (by simp) nofun (by simp)
  | challengePrompt _ _ hp =>
    exact .goesOn [.rx r, .prompt .password] (by simp [hp]) (by simp) (by simp [Event.inner]) (by simp)
  | overflow _ hp => exact .goesOn [_] (by rcases hp with hp | hp <;> simp [hp]) rfl (by simp [Event.inner]) (by simp)
  | discEntry hp | identTx hp | discFinal hp | baud _ _ hp | identSilent _ hp | identShort _ hp | negTx _ _ hp
  | challengeRefused _ _ hp | challengeAgain _ _ hp | challengeExhausted _ _ hp | restart _ _ _ _ hp | ack _ _ hp
  | respRaise _ _ _ _ hp | stage _ _ _ hp | pwTx _ _ hp | askChoice _ hp | cmdTx _ _ _ hp | report _ _ hp =>
    exact .goesOn [_] (by simp [hp]) rfl (by simp [Event.inner]) (by simp)

/-- Of the other instructions START opens a cycle, in IDLE only (R315), and the operator's answers go on with one (R354). -/
theorem ExecMove.cycleStep {i : Instr} {s t : State} (h : ExecMove s i t) : CycleStep s t := by
  cases h with
  | answer | write => exact .rest rfl rfl
  | session _ _ _ _ hmove => exact hmove.cycleStep
  | drawn _ _ _ hmove =>
    cases hmove.cycleStep with
    | rest htrace hphase => exact .rest htrace hphase
    | opens m hs htrace ht => exact .opens m hs htrace ht
    | goesOn es hs htrace hes ht => exact .goesOn es hs htrace hes ht
    | closes c hs htrace ht => exact .closes c hs htrace ht
  | start m hp => exact .opens m hp rfl (by simp)
  | command _ c _ hp =>
    exact .goesOn [.choice c, .prompt .commandText] (by simp [hp]) (by simp) (by simp [Event.inner]) (by simp)
  | cancel _ hp => exact .goesOn [_] (by rcases hp with hp | hp | hp <;> simp [hp]) rfl (by simp [Event.inner]) (by simp)
  | password _ _ hp | text _ _ hp | exit _ hp => exact .goesOn [_] (by simp [hp]) rfl (by simp [Event.inner]) (by simp)

/-- The trace of the state is well bracketed, and a cycle is open in it exactly outside IDLE (R81). -/
def Bracketed (s : State) : Prop := openCycle s.trace = some (decide (s.phase ≠ .idle))

theorem openCycle_append (T es : List Event) : openCycle (T ++ es) = es.foldl bracketEvent (openCycle T) :=
  List.foldl_append

/-- Inner events leave an open cycle open. -/
theorem foldl_bracketEvent_inner {es : List Event} (h : ∀ e ∈ es, e.inner = true) :
    es.foldl bracketEvent (some true) = some true := by
  induction es with
  | nil => rfl
  | cons e es ih =>
    have hinner : e.inner = true := h e (by simp)
    have he : bracketEvent (some true) e = some true := by
      cases e with
      | start | cycleDone => cases hinner
      | _ => rfl
    rw [List.foldl_cons, he, ih fun e he => h e (by simp [he])]

theorem CycleStep.bracketed {s t : State} (h : CycleStep s t) (hs : Bracketed s) : Bracketed t := by
  unfold Bracketed at *
  cases h with
  | rest htrace hphase => rw [htrace, hphase, hs]
  | opens m hidle htrace ht => simp [htrace, openCycle_append, hs, hidle, ht, bracketEvent]
  | goesOn es hopen htrace hes ht => simp [htrace, openCycle_append, hs, hopen, ht, foldl_bracketEvent_inner hes]
  | closes c hopen htrace ht => simp [htrace, openCycle_append, hs, hopen, ht, bracketEvent]

/-- Settles O48: a command's instruction, the block's own step and the sequencer's START are each a step of the cycle. -/
theorem cyclesNeverOverlap : Obligations.CyclesNeverOverlap := by
  intro s t _ hs hstep
  obtain ⟨i, cs, -, hexec⟩ | ⟨-, hdue, rfl⟩ | ⟨-, hexec⟩ := step_next_cases hstep
  · exact (exec_move hexec).cycleStep.bracketed hs
  · exact CycleStep.bracketed (.opens (daemonMode s.counter) hdue.1 rfl (by simp)) hs
  · exact (exec_move hexec).cycleStep.bracketed hs

end Sys2Proof.Machine
end

section
/-! Support and proofs. The frame of the operations run by themselves (R85, R140, R180, R210): what exec answers for them. -/

namespace Sys2Proof.Machine

open Terms

/-- An operation that only answers completes, and changes only its answer. -/
theorem exec_onlyAnswers {i : Instr} (hi : onlyAnswers i = true) (s : State) : ∃ o, exec i s = .next (s.answer o) := by
  cases i with
  | encode | checksum | decode | statusDecode | regSnapshot | parseLine | parseBody | classify => exact ⟨_, rfl⟩
  | statusParse text =>
    cases hw : statusParse text with
    | some w => exact ⟨.word w, by simp [exec, execStatusParse, hw]⟩
    | none => exact ⟨.malformedStatus, by simp [exec, execStatusParse, hw]⟩
  | _ => cases hi

/-- A registry writer is a rule guarded by the cycle (R85), which writes the registry within its layout and answers. -/
theorem exec_writesRegistry {i : Instr} (hi : writesRegistry i = true) (s : State) :
    ∃ o reg, exec i s = duringCycle s (.next ((s.commit reg).answer o)) ∧ regLayout reg = regLayout s.registry := by
  cases i with
  | regUpdate k v => exact ⟨_, _, rfl, regUpdate_layout k v s.registry⟩
  | applyFrame body =>
    cases ha : applyFrame s.cfg body s.registry with
    | some reg => exact ⟨.committed (regSnapshot reg), reg, by simp [exec, execApplyFrame, ha], applyFrame_layout ha⟩
    | none => exact ⟨.malformedStatus, s.registry, by simp [exec, execApplyFrame, ha, State.commit], rfl⟩
  | _ => cases hi

/-- Settles O56: a writer's guard lets it through outside IDLE and refuses it there. -/
theorem operationsChangeOnlyTheirAnswer : Obligations.OperationsChangeOnlyTheirAnswer := by
  intro i s
  refine ⟨fun hi => exec_onlyAnswers hi s, fun hi hp => ?_, fun hi hp => ?_⟩
  · obtain ⟨o, reg, hexec, hlayout⟩ := exec_writesRegistry hi s
    exact ⟨o, reg, hexec.trans (duringCycle_of_ne _ hp), hlayout⟩
  · obtain ⟨o, reg, hexec, -⟩ := exec_writesRegistry hi s
    exact hexec.trans (duringCycle_idle _ hp)

end Sys2Proof.Machine
end

section
/-! Support and proofs. The messages the block sends (R109 to R114, R120): the decoder answers exactly on the bytes of a message. -/

namespace Sys2Proof.Machine

open Terms

/-! ## Operands of a message -/

/-- An option-select message is read exactly from its six bytes, with a mode digit of R111. -/
theorem optselOperands_eq_ok {bs : Bytes} {zy : Byte × Byte} :
    optselOperands bs = .ok zy ↔ bs = optselMsg zy.1 zy.2 ∧ isModeDigit zy.2 = true := by
  constructor
  · intro h
    unfold optselOperands at h
    split at h
    · split at h
      · rename_i hfixed
        obtain ⟨rfl, rfl, rfl, rfl⟩ := hfixed
        split at h
        · rename_i hy
          cases h
          exact ⟨rfl, hy⟩
        · cases h
      · cases h
    · cases h
  · rintro ⟨rfl, hy⟩
    simp [optselOperands, optselMsg, hy]

/-- The body part of a frame, which an empty body does not have (R102). -/
def bodyPart (b : Bytes) : Bytes := if b = [] then [] else stx :: b

/-- Command text is read exactly from the body part of its frame. -/
theorem commandText_eq_ok {rest t : Bytes} : commandText rest = .ok t ↔ rest = bodyPart t := by
  constructor
  · intro h
    unfold commandText at h
    split at h
    · cases h
      rfl
    · split at h
      · split at h
        · cases h
        · rename_i hb ht
          cases h
          rw [bodyPart, if_neg ht, hb]
      · cases h
  · rintro rfl
    by_cases ht : t = [] <;> simp [bodyPart, commandText, ht]

theorem except_map_eq_ok {ε α β : Type} {x : Except ε α} {f : α → β} {y : β} : x.map f = .ok y ↔ ∃ a, x = .ok a ∧ f a = y := by
  cases x <;> simp [Except.map]

/-! ## Framed messages -/

/-- The bytes of an encoded frame before its ETX (R102). -/
def frameOpening (h b : Bytes) : Bytes := (if h = [] then [] else soh :: h) ++ bodyPart b

theorem frameBytes_eq_opening (h b : Bytes) : frameBytes h b = frameOpening h b ++ [etx] := rfl

/-- The messages that are sent through ENCODE, with head and body, DISCONNECT aside (R110, R113, R114). -/
inductive FramedMessage : Instr → Bytes → Bytes → Prop
  | password (pw : Bytes) : FramedMessage (.password pw) headP1 ([0x28] ++ pw ++ [0x29])
  | read (t : Bytes) : FramedMessage (.read t) headR1 t
  | write (t : Bytes) : FramedMessage (.write t) headW1 t
  | optselEncoded (z y : Byte) (hy : isModeDigit y = true) : FramedMessage (.optselEncoded z y) [] (optselMsg z y)

theorem decodeFramed_password (pw : Bytes) :
    decodeFramed ([soh, 0x50, 0x31, stx, 0x28] ++ (pw ++ [0x29])) = .ok (.password pw) := by
  simp only [decodeFramed, afterPrefix_append, beforeLast_append]

theorem decodeFramed_read (rest : Bytes) : decodeFramed ([soh, 0x52, 0x31] ++ rest) = (commandText rest).map .read := rfl

theorem decodeFramed_write (rest : Bytes) : decodeFramed ([soh, 0x57, 0x31] ++ rest) = (commandText rest).map .write := rfl

theorem decodeFramed_optsel (rest : Bytes) :
    decodeFramed ([stx] ++ rest) = (optselOperands rest).map fun zy => .optselEncoded zy.1 zy.2 := rfl

theorem FramedMessage.decodeFramed_opening {i : Instr} {h b : Bytes} (hm : FramedMessage i h b) :
    decodeFramed (frameOpening h b) = .ok i := by
  cases hm with
  | password pw => exact decodeFramed_password pw
  | read => exact (decodeFramed_read (bodyPart b)).trans (except_map_eq_ok.mpr ⟨b, commandText_eq_ok.mpr rfl, rfl⟩)
  | write => exact (decodeFramed_write (bodyPart b)).trans (except_map_eq_ok.mpr ⟨b, commandText_eq_ok.mpr rfl, rfl⟩)
  | optselEncoded z y hy =>
    exact (decodeFramed_optsel (optselMsg z y)).trans (except_map_eq_ok.mpr ⟨(z, y), optselOperands_eq_ok.mpr ⟨rfl, hy⟩, rfl⟩)

/-- `decodeFramed` reads a message exactly from the bytes that ENCODE puts before the ETX of its frame. -/
theorem decodeFramed_eq_ok {inner : Bytes} {i : Instr} :
    decodeFramed inner = .ok i ↔ ∃ h b, FramedMessage i h b ∧ inner = frameOpening h b := by
  constructor
  · intro h
    unfold decodeFramed at h
    split at h
    · rename_i rest hp
      rw [afterPrefix_eq_some] at hp
      split at h
      · rename_i pw hpw
        rw [beforeLast_eq_some] at hpw
        cases h
        exact ⟨_, _, .password pw, by rw [hp, hpw]; rfl⟩
      · cases h
    · split at h
      · rename_i rest hp
        rw [afterPrefix_eq_some] at hp
        obtain ⟨t, ht, rfl⟩ := except_map_eq_ok.mp h
        exact ⟨_, _, .read t, by rw [hp, commandText_eq_ok.mp ht]; rfl⟩
      · split at h
        · rename_i rest hp
          rw [afterPrefix_eq_some] at hp
          obtain ⟨t, ht, rfl⟩ := except_map_eq_ok.mp h
          exact ⟨_, _, .write t, by rw [hp, commandText_eq_ok.mp ht]; rfl⟩
        · split at h
          · rename_i rest hp
            rw [afterPrefix_eq_some] at hp
            obtain ⟨⟨z, y⟩, hzy, rfl⟩ := except_map_eq_ok.mp h
            obtain ⟨hrest, hy⟩ := optselOperands_eq_ok.mp hzy
            exact ⟨_, _, .optselEncoded z y hy, by rw [hp, hrest]; rfl⟩
          · cases h
  · rintro ⟨h, b, hm, rfl⟩
    exact hm.decodeFramed_opening

theorem FramedMessage.encode_eq {i : Instr} {h b : Bytes} (hm : FramedMessage i h b) : encode i = .tx (encodeFrame h b) := by
  cases hm <;> rfl

theorem FramedMessage.wf {i : Instr} {h b : Bytes} (hm : FramedMessage i h b) : i.wf = true := by
  cases hm with
  | optselEncoded z y hy => exact hy
  | _ => rfl

theorem FramedMessage.sends {i : Instr} {h b : Bytes} (hm : FramedMessage i h b) : sends i = true := by
  cases hm <;> rfl

/-! ## Messages from their bytes -/

/-- The first two bytes of a framed message tell it from DISCONNECT, IDENT and OPTSEL, which `decodeTx` tries before it. -/
theorem FramedMessage.ne_unframed {i : Instr} {h b : Bytes} (hm : FramedMessage i h b) :
    encodeFrame h b ≠ [0x01, 0x42, 0x30, 0x03, 0x75] ∧ encodeFrame h b ≠ [0x2F, 0x3F, 0x21, 0x0D, 0x0A] ∧
      (encodeFrame h b).head? ≠ some ackByte := by
  cases hm <;> simp [encodeFrame, frameBytes, optselMsg]

theorem FramedMessage.decodeTx_encodeFrame {i : Instr} {h b : Bytes} (hm : FramedMessage i h b) :
    decodeTx (encodeFrame h b) = .ok i := by
  obtain ⟨hdisc, hident, hack⟩ := hm.ne_unframed
  unfold decodeTx
  rw [if_neg hdisc, if_neg hident, if_neg hack, encodeFrame_dropLast, encodeFrame_getLast, frameBytes_eq_opening,
    beforeLast_append]
  exact (if_pos rfl).trans hm.decodeFramed_opening

/-- The messages the block sends: DISCONNECT, IDENT, OPTSEL, and the framed ones (R109, R110, R112 to R114). -/
inductive Message : Instr → Bytes → Prop
  | disconnect : Message .disconnect disconnectMsg
  | ident : Message .ident identMsg
  | optsel (z y : Byte) (hy : isModeDigit y = true) : Message (.optsel z y) (optselMsg z y)
  | framed {i : Instr} {h b : Bytes} (hm : FramedMessage i h b) : Message i (encodeFrame h b)

/-- Decoding answers an instruction exactly on the bytes of its message. -/
theorem decodeTx_eq_ok {bs : Bytes} {i : Instr} : decodeTx bs = .ok i ↔ Message i bs := by
  constructor
  · intro h
    unfold decodeTx at h
    split at h
    · rename_i hbs
      cases h
      rw [hbs]
      exact .disconnect
    · split at h
      · rename_i hbs
        cases h
        rw [hbs]
        exact .ident
      · split at h
        · obtain ⟨⟨z, y⟩, hzy, rfl⟩ := except_map_eq_ok.mp h
          obtain ⟨rfl, hy⟩ := optselOperands_eq_ok.mp hzy
          exact .optsel z y hy
        · split at h
          · cases h
          · rename_i inner hinner
            rw [beforeLast_eq_some] at hinner
            split at h
            · rename_i hcheck
              obtain ⟨hd, b, hm, rfl⟩ := decodeFramed_eq_ok.mp h
              rw [← List.dropLast_append_getLast? _ hcheck, hinner]
              exact .framed hm
            · cases h
  · intro h
    cases h with
    | disconnect => decide
    | ident => decide
    | optsel z y hy => exact except_map_eq_ok.mpr ⟨(z, y), optselOperands_eq_ok.mpr ⟨rfl, hy⟩, rfl⟩
    | framed hm => exact hm.decodeTx_encodeFrame

theorem Message.encode_eq {i : Instr} {bs : Bytes} (hm : Message i bs) : encode i = .tx bs := by
  cases hm with
  | framed hm => exact hm.encode_eq
  | _ => rfl

theorem Message.wf {i : Instr} {bs : Bytes} (hm : Message i bs) : i.wf = true := by
  cases hm with
  | framed hm => exact hm.wf
  | optsel z y hy => exact hy
  | _ => rfl

theorem Message.sends {i : Instr} {bs : Bytes} (hm : Message i bs) : sends i = true := by
  cases hm with
  | framed hm => exact hm.sends
  | _ => rfl

/-- A well-formed row that is encoded as bytes to be sent is a message of those bytes. -/
theorem message_of_encode {i : Instr} {bs : Bytes} (h : encode i = .tx bs) (hwf : i.wf = true) : Message i bs := by
  cases i with
  | disconnect => cases h; exact .disconnect
  | ident => cases h; exact .ident
  | optsel z y => cases h; exact .optsel z y hwf
  | optselEncoded z y => cases h; exact .framed (.optselEncoded z y hwf)
  | password pw => cases h; exact .framed (.password pw)
  | read t => cases h; exact .framed (.read t)
  | write t => cases h; exact .framed (.write t)
  | _ => cases h

/-- Settles O3: bytes that decode are a message, and a message is its instruction's encoding. -/
theorem decodedTransmissionIsItsEncoding : Obligations.DecodedTransmissionIsItsEncoding := by
  intro bs i h
  have hm := decodeTx_eq_ok.mp h
  exact ⟨hm.wf, hm.sends, hm.encode_eq⟩

end Sys2Proof.Machine
end

section
/-! Support and proofs. Read results (R105 to R107), each of exactly one received row, and the three encoded surfaces read back (R100,
R121). -/

namespace Sys2Proof.Machine

open Terms

/-- The received rows of a read result are the instructions with that result as their encoding. -/
theorem mem_rxRows {i : Instr} {r : Bytes} : i ∈ rxRows r ↔ encode i = .rx r := by
  constructor
  · intro hi
    simp only [rxRows, List.mem_cons, List.not_mem_nil, or_false] at hi
    rcases hi with rfl | rfl | rfl | rfl | rfl | rfl | rfl | rfl <;> rfl
  · intro h
    cases i <;> cases h <;> simp [rxRows]

theorem decodeResponse_mem (r : Bytes) : decodeResponse r ∈ rxRows r := by
  unfold decodeResponse
  cases responseClass r with
  | data => split <;> simp [rxRows]
  | _ => simp [rxRows]

theorem decodeResponse_wf (r : Bytes) : (decodeResponse r).wf = true := by
  unfold decodeResponse
  cases hc : responseClass r with
  | data => cases hv : (decodeFrame r).checksumValid <;> simp [Instr.wf, hc, hv]
  | _ => simp [Instr.wf, hc]

theorem eq_rxIdentReply {r : Bytes} {i : Instr} (hi : encode i = .rx r) (hid : i.identifying = true) :
    i = .rxIdentReply r := by
  cases i with
  | rxIdentReply => cases hi; rfl
  | _ => cases hid

/-- The row of a response is the only well-formed one beside the identification reply: the class, and for data the checksum,
decide it. -/
theorem eq_decodeResponse {r : Bytes} {i : Instr} (hi : encode i = .rx r) (hwf : i.wf = true)
    (hid : i.identifying = false) : i = decodeResponse r := by
  cases i with
  | rxIdentReply => cases hid
  | rxP0 | rxNak | rxTimeout | rxAck | rxUnexpectedHead | rxDataValid | rxDataInvalid =>
    cases hi
    simp only [Instr.wf, decide_eq_true_eq, Bool.and_eq_true, Bool.not_eq_true'] at hwf
    simp [decodeResponse, hwf]
  | _ => cases hi

/-- Settles O4: an awaited identification reply of five or more bytes is one, and any other result has the row of its class. -/
theorem everyReadResultIsOneRow : Obligations.EveryReadResultIsOneRow := by
  intro r b
  unfold decodeRx
  split
  · rename_i hreply
    refine ⟨decide_eq_true hreply.2, by simp [rxRows],
      fun i hi _ hid => eq_rxIdentReply (mem_rxRows.mp hi) (hid.trans ?_)⟩
    simpa using hreply
  · rename_i hresp
    refine ⟨decodeResponse_wf r, decodeResponse_mem r,
      fun i hi hwf hid => eq_decodeResponse (mem_rxRows.mp hi) hwf (hid.trans ?_)⟩
    simpa using hresp

/-- A well-formed received row is read from its bytes where the block awaits what the row is. -/
theorem decodeRx_eq {r : Bytes} {i : Instr} (hi : encode i = .rx r) (hwf : i.wf = true) : decodeRx i.identifying r = i := by
  obtain ⟨-, -, huniq⟩ := everyReadResultIsOneRow r i.identifying
  refine (huniq i (mem_rxRows.mpr hi) hwf ?_).symm
  cases hid : i.identifying with
  | false => rfl
  | true =>
    rw [eq_rxIdentReply hi hid] at hwf
    simpa [Instr.wf] using hwf

theorem encode_eq_op {i j : Instr} (h : encode i = .op j) : i.isOperation = true ∧ j = i := by
  cases i <;> cases h <;> exact ⟨rfl, rfl⟩

/-- Settles O2: message, read result or operation, the encoding says which decoder reads it back. -/
theorem decodeOfEncodeIsIdentity : Obligations.DecodeOfEncodeIsIdentity := by
  intro i b hwf hplace
  cases henc : encode i with
  | tx bs => exact decodeTx_eq_ok.mpr (message_of_encode henc hwf)
  | rx r => rw [hplace r henc, decodeCommand, decodeRx_eq henc hwf]
  | op j =>
    obtain ⟨hop, rfl⟩ := encode_eq_op henc
    exact if_pos hop

end Sys2Proof.Machine
end

section
/-! Support and proofs. The forms, the length and the check byte of an encoded frame (R102, R103, R144), and words written out. -/

namespace Sys2Proof.Machine

open Terms

/-- The check byte of a frame that opens with a marker, as the closed form has it (R102, R145). -/
theorem checksum_start_eq_bcc {m : Byte} (hm : m = soh ∨ m = stx) (bs : Bytes) : checksum (m :: bs) = bcc bs :=
  checksum_start hm bs

/-- Settles O7: head and body empty or not are the four forms, and all but the last open with a marker. -/
theorem encodeGivesFourFrameForms : Obligations.EncodeGivesFourFrameForms := by
  intro h b s
  refine ⟨encodeFrame h b, rfl, fun hh hb => ?_, fun hh hb => ?_, fun hh hb => ?_, fun hh hb => ?_⟩
  · simp [encodeFrame, frameBytes, hh, hb, checksum_start_eq_bcc]
  · simp [encodeFrame, frameBytes, hh, hb, checksum_start_eq_bcc]
  · simp [encodeFrame, frameBytes, hh, hb, checksum_start_eq_bcc]
  · rw [hh, hb]
    decide

/-- A part of a frame has its marker and its bytes, or is left out (R103). -/
theorem length_framePart (m : Byte) (bs : Bytes) :
    (if bs = [] then [] else m :: bs).length = if 0 < bs.length then 1 + bs.length else 0 := by
  cases bs <;> simp [Nat.add_comm]

/-- Settles O8: the two parts, the ETX and the check byte; the check byte is the checksum of what stands before it. -/
theorem encodedFrameLengthAndCheckByte : Obligations.EncodedFrameLengthAndCheckByte := by
  intro h b
  constructor
  · simp only [encodeFrame, frameBytes, List.length_append, length_framePart, List.length_singleton]
    omega
  · rw [encodeFrame_getLast, encodeFrame_dropLast]

/-- Settles O5: the decoders evaluated on the written-out words. -/
theorem writtenOutWordsDecode : Obligations.WrittenOutWordsDecode := by
  unfold Obligations.WrittenOutWordsDecode
  decide

end Sys2Proof.Machine
end

section
/-! Support and proofs. CHECKSUM in closed form (R146, R147): both inductions ask whether the first byte opens the sum. -/

namespace Sys2Proof.Machine

open Terms

/-- A first SOH or STX leaves the rest to be summed. -/
theorem sumAfterStart_start {m : Byte} (hm : m = soh ∨ m = stx) (bs : Bytes) :
    sumAfterStart (m :: bs) = (bs.map BitVec.toNat).sum := by
  rcases hm with rfl | rfl <;> rfl

/-- Bytes before the first SOH or STX do not count. -/
theorem sumAfterStart_skip {b : Byte} (h : b ≠ soh ∧ b ≠ stx) (bs : Bytes) :
    sumAfterStart (b :: bs) = sumAfterStart bs := by
  simp only [sumAfterStart, List.dropWhile_cons, decide_eq_true h, if_true]

/-- The closed form of CHECKSUM (R146). -/
theorem checksum_eq_sumAfterStart (bs : Bytes) : checksum bs = BitVec.ofNat 8 (sumAfterStart bs % 128) := by
  induction bs with
  | nil => rfl
  | cons b bs ih =>
    by_cases hb : b = soh ∨ b = stx
    · rw [checksum_start hb, sumAfterStart_start hb]
    · rw [not_or] at hb
      rw [checksum_skip hb, sumAfterStart_skip hb, ih]

theorem checksum_toNat_lt (bs : Bytes) : (checksum bs).toNat < 128 := by
  rw [checksum_toNat]
  exact foldl_feed_sum_lt bs _ (by decide)

/-- One byte alone is at most a start, and nothing after it is summed. -/
theorem checksum_singleton (b : Byte) : checksum [b] = 0 := by
  by_cases hb : b = soh ∨ b = stx
  · exact checksum_start hb []
  · exact checksum_skip (not_or.mp hb) []

/-- A further byte counts modulo 128 once a start has been seen (R147); before, it is at most the start. -/
theorem checksum_concat (bs : Bytes) (b : Byte) :
    checksum (bs ++ [b]) =
      if ∃ c ∈ bs, c = 0x01 ∨ c = 0x02 then BitVec.ofNat 8 (((checksum bs).toNat + b.toNat % 128) % 128) else 0 := by
  induction bs with
  | nil => simpa using checksum_singleton b
  | cons a bs ih =>
    by_cases ha : a = soh ∨ a = stx
    · have hsum : ((bs.map BitVec.toNat).sum + b.toNat) % 128 =
          ((bs.map BitVec.toNat).sum % 128 % 256 + b.toNat % 128) % 128 := by omega
      rw [if_pos ⟨a, List.mem_cons_self, ha⟩, List.cons_append, checksum_start ha, checksum_start ha]
      simp [hsum]
    · have hskip := not_or.mp ha
      rw [List.cons_append, checksum_skip hskip, checksum_skip hskip, ih]
      simp only [List.exists_mem_cons_iff, ha, false_or]

/-- Settles O6: the closed form, the bound of the scan's sum, and the sum of one byte more. -/
theorem checksumIsSumAfterFirstStart : Obligations.ChecksumIsSumAfterFirstStart := by
  intro bs b s
  refine ⟨?_, checksum_toNat_lt bs, ?_, checksum_concat bs b⟩
  · rw [← checksum_eq_sumAfterStart]
    rfl
  · exact Nat.testBit_lt_two_pow (checksum_toNat_lt bs)

end Sys2Proof.Machine
end

section
/-! Support and proofs. DECODE: the two regions read ahead, the claim, and the round trip with ENCODE (R150 to R161). -/

namespace Sys2Proof.Machine

open Terms

/-- A byte that is no marker goes into the open region, the head before the body (R151). -/
theorem feed_cap_plain (c : CapScan) {b : Byte} (h : b ≠ soh ∧ b ≠ stx ∧ b ≠ etx) :
    c.feed b = if c.capHead then { c with head := c.head ++ [b] }
      else if c.capBody then { c with body := c.body ++ [b] } else c := by
  obtain ⟨hsoh, hstx, hetx⟩ := h
  rw [CapScan.feed, if_neg hsoh, if_neg hstx, if_neg hetx]

/-- A byte is one of the three markers or none of them. -/
theorem marker_or_plain (b : Byte) : b = soh ∨ b = stx ∨ b = etx ∨ (b ≠ soh ∧ b ≠ stx ∧ b ≠ etx) := by
  by_cases hsoh : b = soh
  · exact .inl hsoh
  · by_cases hstx : b = stx
    · exact .inr (.inl hstx)
    · by_cases hetx : b = etx
      · exact .inr (.inr (.inl hetx))
      · exact .inr (.inr (.inr ⟨hsoh, hstx, hetx⟩))

theorem headBytes_plain (o : Bool) {b : Byte} (h : b ≠ soh ∧ b ≠ stx ∧ b ≠ etx) (bs : Bytes) :
    headBytes o (b :: bs) = if o then b :: headBytes true bs else headBytes false bs := by
  obtain ⟨hsoh, hstx, hetx⟩ := h
  rw [headBytes, if_neg hsoh, if_neg (not_or.mpr ⟨hstx, hetx⟩)]

theorem bodyBytes_plain (o : Bool) {b : Byte} (h : b ≠ soh ∧ b ≠ stx ∧ b ≠ etx) (bs : Bytes) :
    bodyBytes o (b :: bs) = if o then b :: bodyBytes true bs else bodyBytes false bs := by
  obtain ⟨hsoh, hstx, hetx⟩ := h
  rw [bodyBytes, if_neg hstx, if_neg (not_or.mpr ⟨hsoh, hetx⟩)]

/-- The scan appends to the head what the head regions hold, read ahead (R151, R153, R154). -/
theorem foldl_feed_cap_head (bs : Bytes) (c : CapScan) :
    (bs.foldl CapScan.feed c).head = c.head ++ headBytes c.capHead bs := by
  induction bs generalizing c with
  | nil => simp [headBytes]
  | cons b bs ih =>
    rw [List.foldl_cons, ih]
    rcases marker_or_plain b with rfl | rfl | rfl | hb
    · rw [feed_cap_soh]
      simp [headBytes]
    · rw [feed_cap_stx]
      simp [headBytes]
    · rw [feed_cap_etx]
      simp [headBytes]
    · rw [feed_cap_plain c hb, headBytes_plain _ hb]
      cases hc : c.capHead with
      | true => simp
      | false => cases c.capBody <;> simp [hc]

/-- The scan appends to the body what the body regions hold, read ahead; no more than one region is ever open. -/
theorem foldl_feed_cap_body (bs : Bytes) (c : CapScan) (h : c.capBody = true → c.capHead = false) :
    (bs.foldl CapScan.feed c).body = c.body ++ bodyBytes c.capBody bs := by
  induction bs generalizing c with
  | nil => simp [bodyBytes]
  | cons b bs ih =>
    rw [List.foldl_cons]
    rcases marker_or_plain b with rfl | rfl | rfl | hb
    · rw [feed_cap_soh, ih _ (by simp)]
      simp [bodyBytes]
    · rw [feed_cap_stx, ih _ (by simp)]
      simp [bodyBytes]
    · rw [feed_cap_etx, ih _ (by simp)]
      simp [bodyBytes]
    · rw [feed_cap_plain c hb, bodyBytes_plain _ hb]
      cases hc : c.capBody with
      | true => simp [ih, h hc]
      | false => cases hh : c.capHead <;> simp [ih, hc, hh]

/-- Settles O10: the scan's regions are those read ahead, and the claim is compared with the closed form of the checksum. -/
theorem decodeReadsRegionsAndClaim : Obligations.DecodeReadsRegionsAndClaim := by
  intro bs c s hbs
  have hdec : decodeFrame (bs ++ [c]) =
      { head := headBytes false bs, body := bodyBytes false bs,
        checksumValid := decide (c = BitVec.ofNat 8 (sumAfterStart bs % 128)) } := by
    rw [decodeFrame_append bs c hbs, foldl_feed_cap_head, foldl_feed_cap_body _ _ (fun _ => rfl),
      checksum_eq_sumAfterStart]
    rfl
  rw [← hdec]
  rfl

/-- Settles O12: only the checksum's own value is a valid last byte, and the regions do not reach it. -/
theorem lastByteCorruptionIsSeen : Obligations.LastByteCorruptionIsSeen := by
  intro bs c d hbs hvalid hd
  rw [decodeFrame_append bs c hbs] at hvalid ⊢
  have hc : c = checksum bs := of_decide_eq_true hvalid
  rw [decodeFrame_append bs d hbs, decide_eq_false (hc ▸ hd)]

/-- Settles O11: the short-input shortcut (R150). -/
theorem shortInputIsItsOwnBody : Obligations.ShortInputIsItsOwnBody := by
  intro bs s hbs
  have hdec : decodeFrame bs = { head := [], body := bs, checksumValid := true } := if_pos hbs
  rw [← hdec]
  rfl

/-- The head part of a frame, left out where it is empty, leaves the head captured and its region open where there is one. -/
theorem foldl_feed_headPart {h : Bytes} (hm : MarkerFree h) :
    (if h = [] then [] else soh :: h).foldl CapScan.feed ⟨false, false, [], []⟩ = ⟨decide (h ≠ []), false, h, []⟩ := by
  by_cases hh : h = []
  · simp [hh]
  · rw [if_neg hh, List.foldl_cons, feed_cap_soh, foldl_feed_head h hm]
    simp [hh]

/-- The body part of a frame, left out where it is empty, is captured beside the head. -/
theorem foldl_feed_bodyPart {b : Bytes} (hm : MarkerFree b) (o : Bool) (h : Bytes) :
    (if b = [] then [] else stx :: b).foldl CapScan.feed ⟨o, false, h, []⟩ =
      ⟨o && decide (b = []), decide (b ≠ []), h, b⟩ := by
  by_cases hb : b = []
  · simp [hb]
  · rw [if_neg hb, List.foldl_cons, feed_cap_stx, foldl_feed_body b hm]
    simp [hb]

/-- The scan of an encoded frame captures its two marker-free parts, and the ETX closes the region left open. -/
theorem foldl_feed_frameBytes {h b : Bytes} (hh : MarkerFree h) (hb : MarkerFree b) :
    (frameBytes h b).foldl CapScan.feed ⟨false, false, [], []⟩ = ⟨false, false, h, b⟩ := by
  rw [frameBytes, List.foldl_append, List.foldl_append, foldl_feed_headPart hh, foldl_feed_bodyPart hb,
    List.foldl_cons, feed_cap_etx, List.foldl_nil]

/-- Settles O9: the scan gives both parts back, and the claim is the checksum ENCODE appended. -/
theorem decodeUndoesEncode : Obligations.DecodeUndoesEncode := by
  intro h b hh hb
  rw [encodeFrame, decodeFrame_append _ _ (frameBytes_ne_nil h b), foldl_feed_frameBytes hh hb, decide_eq_true rfl]

end Sys2Proof.Machine
end

section
/-! Support and proofs. The status decoder (R181 to R191): hexadecimal text by its digit table, the bit map by division, and the bits
no field reads. -/

namespace Sys2Proof.Machine

open Terms

/-! ## STATUS_PARSE -/

/-- A byte of the digit table has the table's value, and no other byte is a digit (R181, R182). -/
theorem hexDigit_eq (c : Byte) :
    hexDigit c = if c ∈ hexTable.map Prod.fst then some ((hexTable.lookup c).getD 0) else none := by
  revert c
  decide

/-- The scan of digits is Horner's rule for the positional value (R72). -/
theorem hexValue_of_digits {text : Bytes} (h : ∀ c ∈ text, c ∈ hexTable.map Prod.fst) (v : Nat) :
    hexValue v text = some (v * 16 ^ text.length + positional text) := by
  induction text generalizing v with
  | nil => simp [hexValue, positional]
  | cons c cs ih =>
    rw [List.forall_mem_cons] at h
    simp only [hexValue, hexDigit_eq, if_pos h.1, ih h.2, positional, List.length_cons, Option.some_inj]
    ring

/-- A byte that is no digit, wherever it stands, stops the scan. -/
theorem hexValue_eq_none {text : Bytes} {c : Byte} (hmem : c ∈ text) (hc : c ∉ hexTable.map Prod.fst) (v : Nat) :
    hexValue v text = none := by
  induction text generalizing v with
  | nil => cases hmem
  | cons b bs ih =>
    by_cases hb : b ∈ hexTable.map Prod.fst
    · have hbs : c ∈ bs := (List.mem_cons.mp hmem).resolve_left fun h => hc (h ▸ hb)
      simp only [hexValue, hexDigit_eq, if_pos hb, ih hbs]
    · simp only [hexValue, hexDigit_eq, if_neg hb]

theorem statusParse_of_hexText {text : Bytes} (h : HexText text) :
    statusParse text = some (BitVec.ofNat 32 (positional text)) := by
  obtain ⟨hne, hdigits⟩ := h
  simp [statusParse, hne, hexValue_of_digits hdigits]

theorem statusParse_of_not_hexText {text : Bytes} (h : ¬HexText text) : statusParse text = none := by
  by_cases hne : text = []
  · exact if_pos hne
  · obtain ⟨c, hmem, hc⟩ : ∃ c ∈ text, c ∉ hexTable.map Prod.fst := by simpa [HexText, hne] using h
    rw [statusParse, if_neg hne, hexValue_eq_none hmem hc, Option.map_none]

/-- MalformedStatus exactly for text that is not hexadecimal (R181). -/
theorem statusParse_eq_none_iff {text : Bytes} : statusParse text = none ↔ ¬HexText text :=
  ⟨fun h hx => by simp [statusParse_of_hexText hx] at h, statusParse_of_not_hexText⟩

/-- Settles O14: the scan of the digits is their positional value, and the machine word takes it modulo 2^32. -/
theorem statusParseReadsHexText : Obligations.StatusParseReadsHexText := by
  intro text s
  constructor
  · intro h
    have hmod : BitVec.ofNat 32 (positional text % 2 ^ 32) = BitVec.ofNat 32 (positional text) :=
      BitVec.eq_of_toNat_eq (Nat.mod_mod _ _)
    rw [hmod]
    simp only [exec, execStatusParse, statusParse_of_hexText h, State.answer]
  · intro h
    simp only [exec, execStatusParse, statusParse_of_not_hexText h, State.answer]

/-! ## The bit map -/

/-- A single bit by division (R12). -/
theorem bitOf_eq_div_mod (w : StatusWord) (n : Nat) : bitOf w n = w.toNat / 2 ^ n % 2 := Nat.toNat_testBit w.toNat n

theorem bitOf_le_one (w : StatusWord) (n : Nat) : bitOf w n ≤ 1 := Bool.toNat_le _

/-- The mask of the tariff takes the three lowest bits. -/
theorem tariff_eq_mod (w : StatusWord) : statusValue w .tariff = w.toNat % 8 := by
  rw [statusValue, BitVec.toNat_and]
  exact Nat.and_two_pow_sub_one_eq_mod w.toNat 3

/-- The mask of the two voltage alarms is clear exactly where both alarm bits are (R187). -/
theorem voltageIsNormal_eq (w : StatusWord) :
    statusValue w .voltageIsNormal = if bitOf w 10 = 0 ∧ bitOf w 11 = 0 then 1 else 0 := by
  have hmask : (0x0C00 : StatusWord) = BitVec.twoPow 32 10 ||| BitVec.twoPow 32 11 := by decide
  rw [statusValue, bitOf, bitOf, hmask, BitVec.and_or_distrib_left, BitVec.and_twoPow, BitVec.and_twoPow]
  cases w.getLsbD 10 <;> cases w.getLsbD 11 <;> decide

/-- Settles O15: each mask and bit of the map, by division. -/
theorem statusDecodeFollowsBitMap : Obligations.StatusDecodeFollowsBitMap := by
  intro w s
  refine ⟨statusDecode w, rfl, ?_⟩
  simp only [statusDecode, statusFields, List.map_cons, List.map_nil, tariff_eq_mod, voltageIsNormal_eq]
  simp only [statusValue, bitOf_eq_div_mod]

/-- A bit that a mask holds is the same under the mask. -/
theorem bitOf_and {m : StatusWord} {n : Nat} (h : m.getLsbD n = true) (w : StatusWord) : bitOf (w &&& m) n = bitOf w n := by
  simp [bitOf, h]

/-- The mask 0x1F3B5F8F holds every bit that a field reads (R189). -/
theorem statusValue_and_used (w : StatusWord) (f : StatusField) : statusValue (w &&& 0x1F3B5F8F) f = statusValue w f := by
  cases f with
  | tariff => simp only [statusValue, BitVec.and_assoc]; rfl
  | voltageIsNormal => simp only [statusValue, BitVec.and_assoc]; rfl
  | forwardDirection | capacitiveLoad => exact congrArg (1 - ·) (bitOf_and (by decide) w)
  | _ => exact bitOf_and (by decide) w

/-- Settles O16: no field reads a bit outside the mask, a pair is one bit in its two polarities, and voltage-is-normal is the two
alarm bits. -/
theorem statusFieldsIgnoreUnusedBitsAndPair : Obligations.StatusFieldsIgnoreUnusedBitsAndPair := by
  intro w
  have hpair (n : Nat) : 1 - bitOf w n + bitOf w n = 1 := Nat.sub_add_cancel (bitOf_le_one w n)
  refine ⟨?_, hpair 7, hpair 8, ?_, ?_⟩
  · simp only [statusDecode, statusValue_and_used]
  · rw [voltageIsNormal_eq]
    simp [statusValue]
  · rw [voltageIsNormal_eq]
    split
    · exact .inr rfl
    · exact .inl rfl

end Sys2Proof.Machine
end

section
/-! Support and proofs. APPLY_FRAME on the status fields (R190, R218 to R220): where it commits, what a `STAT_` line writes, and what
later lines leave alone. -/

namespace Sys2Proof.Machine

open Terms

/-! ## Where a frame commits -/

theorem applyPair_of_statKey {p : Params} {kv : Bytes × Bytes} (h : kv.1 = statKey) (reg : List Entry) :
    applyPair p kv reg = (statusParse kv.2).map fun w => writeStatus p w (regUpdate kv.1 kv.2 reg).1 := if_pos h

theorem applyPair_of_ne {p : Params} {kv : Bytes × Bytes} (h : kv.1 ≠ statKey) (reg : List Entry) :
    applyPair p kv reg = some (regUpdate kv.1 kv.2 reg).1 := if_neg h

/-- A pair is malformed exactly where it is a `STAT_` line whose value is no hexadecimal text (R181, R218). -/
theorem applyPair_eq_none_iff {p : Params} {kv : Bytes × Bytes} {reg : List Entry} :
    applyPair p kv reg = none ↔ kv.1 = statKey ∧ ¬HexText kv.2 := by
  by_cases h : kv.1 = statKey
  · simp [applyPair_of_statKey h, statusParse_eq_none_iff, h]
  · simp [applyPair_of_ne h, h]

/-- One malformed pair, wherever it stands, refuses all of them (R218). -/
theorem applyPairs_eq_none_iff {p : Params} {kvs : List (Bytes × Bytes)} {reg : List Entry} :
    applyPairs p kvs reg = none ↔ ∃ kv ∈ kvs, kv.1 = statKey ∧ ¬HexText kv.2 := by
  induction kvs generalizing reg with
  | nil => simp [applyPairs]
  | cons kv kvs ih =>
    rw [applyPairs, List.exists_mem_cons_iff, ← applyPair_eq_none_iff (p := p) (reg := reg)]
    cases h : applyPair p kv reg with
    | none => simp
    | some r => simpa using ih

/-- APPLY_FRAME answers MalformedStatus exactly for a malformed body (R218). -/
theorem applyFrame_eq_none_iff {p : Params} {body : Bytes} {reg : List Entry} :
    applyFrame p body reg = none ↔ StatMalformed body := by
  rw [applyFrame, applyPairs_eq_none_iff]
  constructor
  · rintro ⟨⟨k, v⟩, hmem, rfl, hv⟩
    exact ⟨v, hmem, hv⟩
  · rintro ⟨v, hmem, hv⟩
    exact ⟨(statKey, v), hmem, rfl, hv⟩

/-- Within a cycle APPLY_FRAME commits the registry it computes. -/
theorem exec_applyFrame_some {body : Bytes} {s : State} {reg : List Entry} (hp : s.phase ≠ .idle)
    (h : applyFrame s.cfg body s.registry = some reg) :
    exec (.applyFrame body) s = .next ((s.commit reg).answer (.committed (regSnapshot reg))) := by
  rw [exec, execApplyFrame, duringCycle_of_ne _ hp, h]

/-! ## What the pairs leave alone -/

theorem regRead_writeStatus_other {p : Params} {k : Bytes} (w : StatusWord) (reg : List Entry)
    (h : ∀ f, statusKey p f ≠ k) : regRead k (writeStatus p w reg) = regRead k reg :=
  regRead_foldl_other (fun fx : StatusField × Nat => statusKey p fx.1) (fun fx => statusText fx.2) k _ reg fun fx _ => h fx.1

/-- A pair leaves a key alone that is not its own and, where it is a `STAT_` line, no status field's. -/
theorem regRead_applyPair_other {p : Params} {kv : Bytes × Bytes} {reg reg' : List Entry} {k : Bytes}
    (h : applyPair p kv reg = some reg') (hk : k ≠ kv.1) (hstat : kv.1 = statKey → ∀ f, statusKey p f ≠ k) :
    regRead k reg' = regRead k reg := by
  by_cases hs : kv.1 = statKey
  · rw [applyPair_of_statKey hs] at h
    obtain ⟨w, -, rfl⟩ := Option.map_eq_some_iff.mp h
    rw [regRead_writeStatus_other w _ (hstat hs), regRead_update_other _ _ hk]
  · rw [applyPair_of_ne hs] at h
    obtain rfl := Option.some.inj h
    exact regRead_update_other _ _ hk

/-- Pairs leave a key alone that none of them has and, where one is a `STAT_` line, that is no status field's (R219). -/
theorem regRead_applyPairs_other {p : Params} {kvs : List (Bytes × Bytes)} {reg reg' : List Entry} {k : Bytes}
    (h : applyPairs p kvs reg = some reg') (hk : k ∉ kvs.map Prod.fst)
    (hstat : statKey ∈ kvs.map Prod.fst → ∀ f, statusKey p f ≠ k) : regRead k reg' = regRead k reg := by
  induction kvs generalizing reg with
  | nil => cases h; rfl
  | cons kv kvs ih =>
    obtain ⟨r, hr, h'⟩ := Option.bind_eq_some_iff.mp h
    rw [List.map_cons, List.mem_cons, not_or] at hk
    rw [List.map_cons, List.mem_cons] at hstat
    rw [ih h' hk.2 fun hm => hstat (.inr hm), regRead_applyPair_other hr hk.1 fun hs => hstat (.inl hs.symm)]

/-! ## What a `STAT_` line writes -/

/-- A run of updates writes the value of an element whose key no other element has. -/
theorem regRead_foldl_same {α : Type} (f g : α → Bytes) {l : List α} {reg : List Entry} {x : α} (hx : x ∈ l)
    (hinj : ∀ y ∈ l, f y = f x → y = x) (hk : f x ∈ reg.map Entry.key) :
    regRead (f x) (l.foldl (fun r y => (regUpdate (f y) (g y) r).1) reg) = some (g x) := by
  induction l generalizing reg with
  | nil => cases hx
  | cons y l ih =>
    rw [List.foldl_cons]
    by_cases hl : x ∈ l
    · refine ih hl (fun z hz => hinj z (List.mem_cons_of_mem y hz)) ?_
      rwa [keys_of_layout (regUpdate_layout (f y) (g y) reg)]
    · obtain rfl : x = y := (List.mem_cons.mp hx).resolve_right hl
      have hother : ∀ z ∈ l, f z ≠ f x := fun z hz he => hl (hinj z (List.mem_cons_of_mem x hz) he ▸ hz)
      rw [regRead_foldl_other f g (f x) l _ hother, regRead_update_same _ hk]

theorem mem_statusFields (f : StatusField) : f ∈ statusFields := by
  cases f <;> decide

/-- The status write leaves a field's digit under a key that no other field has (R190). -/
theorem regRead_writeStatus_same {p : Params} {f : StatusField} (w : StatusWord) {reg : List Entry}
    (huniq : ∀ g, statusKey p g = statusKey p f → g = f) (hk : statusKey p f ∈ reg.map Entry.key) :
    regRead (statusKey p f) (writeStatus p w reg) = some (statusText (statusValue w f)) := by
  refine regRead_foldl_same (fun fx : StatusField × Nat => statusKey p fx.1) (fun fx => statusText fx.2)
    (x := (f, statusValue w f)) (List.mem_map_of_mem (mem_statusFields f)) (fun fx hfx hkey => ?_) hk
  obtain ⟨g, -, rfl⟩ := List.mem_map.mp hfx
  rw [huniq g hkey]

/-- Settles O23: the lines before keep the keys, the `STAT_` line writes the field's digit, and the lines after leave it alone. -/
theorem statLineWritesEveryStatusField : Obligations.StatLineWritesEveryStatusField := by
  intro body v ps qs s f hp hbody hwf hstat hlater huniq hkey
  have hhex : HexText v := by
    by_contra hv
    exact hwf ⟨v, by simp [hbody], hv⟩
  obtain ⟨reg, happly⟩ := Option.ne_none_iff_exists'.mp (mt applyFrame_eq_none_iff.mp hwf)
  refine ⟨_, exec_applyFrame_some hp happly, ?_⟩
  rw [applyFrame, hbody, applyPairs_append] at happly
  obtain ⟨before, hbefore, happly⟩ := Option.bind_eq_some_iff.mp happly
  rw [applyPairs, applyPair_of_statKey rfl, statusParse_of_hexText hhex, Option.map_some, Option.bind_some] at happly
  rw [answer_registry, commit_registry, regRead_applyPairs_other happly hlater fun h => absurd h hstat]
  refine regRead_writeStatus_same _ huniq ?_
  rwa [keys_of_layout (regUpdate_layout _ _ before), keys_of_layout (applyPairs_layout hbefore)]

end Sys2Proof.Machine
end

section
/-! Support and proofs. The registry operations run by themselves (R85, R211 to R219): one update, the snapshot, a whole frame, and
the pair of a frame that no later line overwrites. -/

namespace Sys2Proof.Machine

open Terms

/-! ## One update and the snapshot -/

/-- Within a cycle REG_UPDATE commits the updated entries and answers whether the key is known. -/
theorem exec_regUpdate {s : State} (hp : s.phase ≠ .idle) (k v : Bytes) :
    exec (.regUpdate k v) s =
      .next ((s.commit (regUpdate k v s.registry).1).answer (.bool (regUpdate k v s.registry).2)) :=
  duringCycle_of_ne _ hp

/-- Settles O17: a known key is updated in place, an unknown one is a no-op, and the guard refuses between cycles. -/
theorem regUpdateWritesOneValueOrNone : Obligations.RegUpdateWritesOneValueOrNone := by
  intro k v s
  refine ⟨fun hp hk => ?known, fun hp hk => ?unknown, duringCycle_idle _⟩
  case known =>
    refine ⟨(regUpdate k v s.registry).1, ?_, regRead_update_same v hk,
      fun k' hk' => regRead_update_other v s.registry hk', regUpdate_layout k v s.registry⟩
    rw [exec_regUpdate hp, regUpdate_known v hk]
    rfl
  case unknown =>
    rw [exec_regUpdate hp, regUpdate_unknown v hk]
    rfl

/-- Settles O18: the arm of REG_SNAPSHOT is the list itself. -/
theorem snapshotListsEveryEntryInOrder : Obligations.SnapshotListsEveryEntryInOrder := fun _ => rfl

/-! ## A whole frame -/

/-- A body that is not malformed gives a registry to commit (R218). -/
theorem exists_applyFrame {body : Bytes} (hwf : ¬StatMalformed body) (p : Params) (reg : List Entry) :
    ∃ reg', applyFrame p body reg = some reg' :=
  Option.ne_none_iff_exists'.mp (mt applyFrame_eq_none_iff.mp hwf)

/-- Within a cycle a malformed body is only answered (R218; log 10). -/
theorem exec_applyFrame_malformed {body : Bytes} {s : State} (hp : s.phase ≠ .idle) (h : StatMalformed body) :
    exec (.applyFrame body) s = .next (s.answer .malformedStatus) := by
  rw [exec, execApplyFrame, duringCycle_of_ne _ hp, applyFrame_eq_none_iff.mpr h]

/-- Settles O21: the pairs either refuse as a whole or commit a registry that differs only where a pair or a status field writes. -/
theorem applyFrameIsAllOrNothing : Obligations.ApplyFrameIsAllOrNothing := by
  intro body s
  refine ⟨duringCycle_idle _, exec_applyFrame_malformed, fun hp hwf => ?_⟩
  obtain ⟨reg, happly⟩ := exists_applyFrame hwf s.cfg s.registry
  exact ⟨reg, exec_applyFrame_some hp happly, happly, applyFrame_layout happly,
    fun k hk hstat => regRead_applyPairs_other happly hk hstat⟩

/-! ## The last pair of a key -/

/-- A pair leaves its value under a key of the registry that, where the pair is a `STAT_` line, is no status field's. -/
theorem regRead_applyPair_same {p : Params} {k v : Bytes} {reg reg' : List Entry} (h : applyPair p (k, v) reg = some reg')
    (hk : k ∈ reg.map Entry.key) (hstat : k = statKey → ∀ f, statusKey p f ≠ k) : regRead k reg' = some v := by
  by_cases hs : k = statKey
  · rw [applyPair_of_statKey hs] at h
    obtain ⟨w, -, rfl⟩ := Option.map_eq_some_iff.mp h
    rw [regRead_writeStatus_other w _ (hstat hs), regRead_update_same v hk]
  · rw [applyPair_of_ne hs] at h
    obtain rfl := Option.some.inj h
    exact regRead_update_same v hk

/-- Settles O22: the pairs before keep the keys, the pair writes its value, and the pairs after leave it alone. -/
theorem lastPairOfFrameKeepsItsValue : Obligations.LastPairOfFrameKeepsItsValue := by
  intro body k v ps qs s hp hbody hwf hkey hlater hstat
  obtain ⟨reg, happly⟩ := exists_applyFrame hwf s.cfg s.registry
  refine ⟨_, exec_applyFrame_some hp happly, ?_⟩
  rw [applyFrame, hbody, applyPairs_append] at happly
  obtain ⟨before, hbefore, happly⟩ := Option.bind_eq_some_iff.mp happly
  obtain ⟨written, hwritten, hafter⟩ := Option.bind_eq_some_iff.mp happly
  rw [answer_registry, commit_registry, regRead_applyPairs_other hafter hlater fun hm => hstat (.inr hm)]
  refine regRead_applyPair_same hwritten ?_ fun hk => hstat (.inl hk)
  rwa [keys_of_layout (applyPairs_layout hbefore)]

end Sys2Proof.Machine
end

section
/-! Support and proofs. The lines of a data-frame body (R108, R216, R217): the bytes PARSE_LINE matches, and the lines a body is joined
of. -/

namespace Sys2Proof.Machine

open Terms

/-! ## PARSE_LINE -/

/-- What is left of a line without one trailing CR, for bytes that do not end in CR themselves. -/
theorem dropTrailingCr_eq_iff {line x : Bytes} (hx : x.getLast? ≠ some cr) :
    dropTrailingCr line = x ↔ line = x ∨ line = x ++ [cr] := by
  constructor
  · rintro rfl
    unfold dropTrailingCr
    split
    · exact .inr (List.dropLast_append_getLast? cr ‹_›).symm
    · exact .inl rfl
  · rintro (rfl | rfl)
    · exact if_neg hx
    · simp [dropTrailingCr]

/-- A line that holds no `(` does not match. -/
theorem parseLine_of_no_paren {line : Bytes} (h : 0x28 ∉ dropTrailingCr line) : parseLine line = none := by
  have hnil : ((dropTrailingCr line).dropWhile fun b => decide (b ≠ 0x28)) = [] :=
    List.dropWhile_eq_nil_iff.mpr fun b hb => decide_eq_true fun he => h (he ▸ hb)
  rw [parseLine, hnil]

/-- A line is cut at its first `(` (R216). -/
theorem parseLine_of_cut {line key rest : Bytes} (hcut : dropTrailingCr line = key ++ 0x28 :: rest) (hkey : 0x28 ∉ key) :
    parseLine line =
      if key = [] then none else if rest.getLast? = some 0x29 then some (key, rest.dropLast) else none := by
  have hpos : ∀ b ∈ key, decide (b ≠ 0x28) = true := fun b hb => decide_eq_true fun he => hkey (he ▸ hb)
  rw [parseLine, hcut, List.dropWhile_append_of_pos hpos, List.takeWhile_append_of_pos hpos]
  simp

/-- PARSE_LINE matches exactly the text `KEY(value)`, after the trailing CR is dropped (R216). -/
theorem parseLine_eq_some_iff {line k v : Bytes} :
    parseLine line = some (k, v) ↔ k ≠ [] ∧ 0x28 ∉ k ∧ dropTrailingCr line = lineText k v := by
  constructor
  · intro h
    by_cases hparen : 0x28 ∈ dropTrailingCr line
    · obtain ⟨key, rest, hcut, hkey⟩ := List.eq_append_cons_of_mem hparen
      rw [parseLine_of_cut hcut hkey, Option.ite_none_left_eq_some, Option.ite_none_right_eq_some] at h
      obtain ⟨hne, hlast, hkv⟩ := h
      cases hkv
      refine ⟨hne, hkey, ?_⟩
      rw [hcut, ← List.dropLast_append_getLast? 0x29 hlast]
      simp [lineText]
    · cases (parseLine_of_no_paren hparen).symm.trans h
  · rintro ⟨hne, hkey, hcut⟩
    have hcut' : dropTrailingCr line = k ++ 0x28 :: (v ++ [0x29]) := by simp [hcut, lineText]
    rw [parseLine_of_cut hcut' hkey]
    simp [hne]

/-- Settles O19: the answer is the match of a line without LF, and `KEY(value)` does not end in CR. -/
theorem parseLineMatchesKeyValue : Obligations.ParseLineMatchesKeyValue := by
  intro line s
  refine ⟨parseLineAnswer line, rfl, fun hlf k v => ?_⟩
  have hend : (lineText k v).getLast? ≠ some cr := by
    rw [lineText, List.getLast?_concat]
    decide
  rw [parseLineAnswer, if_neg hlf, parseLine_eq_some_iff, dropTrailingCr_eq_iff hend]

/-! ## PARSE_BODY -/

/-- The first of several lines ends at an LF. -/
theorem joinLines_cons_cons (l l' : Bytes) (ls : List Bytes) :
    joinLines (l :: l' :: ls) = l ++ lf :: joinLines (l' :: ls) := by
  simp [joinLines, List.intercalate_cons_cons]

/-- Lines without LF are what the body they are joined to is split into (R217). -/
theorem splitLines_joinLines {ls : List Bytes} (hne : ls ≠ []) (hlf : ∀ l ∈ ls, lf ∉ l) :
    splitLines (joinLines ls) = ls := by
  induction ls with
  | nil => exact absurd rfl hne
  | cons l ls ih =>
    rw [List.forall_mem_cons] at hlf
    cases ls with
    | nil => rw [joinLines, List.intercalate_singleton, splitLines_no_lf hlf.1]
    | cons l' ls => rw [joinLines_cons_cons, splitLines_lf hlf.1, ih (List.cons_ne_nil l' ls) hlf.2]

/-- Every body is lines without LF, joined: an LF opens a new first line, any other byte lengthens the first line (R108). -/
theorem exists_eq_joinLines (body : Bytes) : ∃ ls : List Bytes, ls ≠ [] ∧ (∀ l ∈ ls, lf ∉ l) ∧ body = joinLines ls := by
  induction body with
  | nil => exact ⟨[[]], by simp, by simp, rfl⟩
  | cons b body ih =>
    obtain ⟨_ | ⟨l, ls⟩, hne, hlf, rfl⟩ := ih
    · exact absurd rfl hne
    by_cases hb : b = lf
    · refine ⟨[] :: l :: ls, List.cons_ne_nil _ _, List.forall_mem_cons.mpr ⟨List.not_mem_nil, hlf⟩, ?_⟩
      rw [hb, joinLines_cons_cons, List.nil_append]
    · rw [List.forall_mem_cons] at hlf
      refine ⟨(b :: l) :: ls, List.cons_ne_nil _ _, List.forall_mem_cons.mpr ⟨?_, hlf.2⟩, ?_⟩
      · exact List.not_mem_cons_of_ne_of_not_mem (Ne.symm hb) hlf.1
      · rw [joinLines, joinLines, List.intercalate_cons_cons_left]

/-- Settles O20: splitting undoes joining, so the pairs are those of the joined lines. -/
theorem parseBodyTakesLinesInOrder : Obligations.ParseBodyTakesLinesInOrder := by
  refine ⟨fun ls s hne hlf => ?_, exists_eq_joinLines⟩
  rw [exec, execParseBody, parseBody, splitLines_joinLines hne hlf]
  rfl

end Sys2Proof.Machine
end

section
/-! Support and proofs. The session steps complete (R241, R332): where the record holds what the phase's step reads, the step
answers a next state, so no instruction faults in a coherent state. -/

namespace Sys2Proof.Machine

open Terms

/-! ## Which step an instruction runs -/

/-- The phases that read are IDENT_RX and RESP_RX (R342(a)). -/
theorem Phase.reads_iff {ph : Phase} : ph.reads = true ↔ ph = .identRx ∨ ph = .respRx := by
  cases ph <;> simp [Phase.reads]

/-- STEP where the phase reads nothing is the phase's step (R241). -/
theorem exec_step_of_not_reads {s : State} (h : s.phase.reads = false) : exec .step s = internalStep [] s := by
  simp [exec, execStep, h]

/-- A read result where the phase reads is the phase's step with that result (R278). -/
theorem receive_of_reads {s : State} (r : Bytes) (h : s.phase.reads = true) : receive r s = internalStep r s := by
  rw [receive_eq, if_pos (Phase.reads_iff.mp h)]

/-- A session step with a given read result is the phase's step, with that result where the phase reads. -/
theorem stepWithRead_eq (r : Bytes) (s : State) :
    stepWithRead r s = internalStep (if s.phase.reads then r else []) s := by
  unfold stepWithRead
  cases h : s.phase.reads with
  | true => simp [exec_decodeRx, receive_of_reads r h]
  | false => simp [exec_step_of_not_reads h]

/-! ## Completion -/

/-- The step answers a next state. -/
def Completes (x : Result) : Prop := ∃ t, x = .next t

theorem completes_next (t : State) : Completes (.next t) := ⟨t, rfl⟩

theorem completes_onSession {s : State} {S : Session} {rule : Session → Result} (hs : s.session = some S)
    (h : Completes (rule S)) : Completes (onSession s rule) := by
  rwa [onSession_some rule hs]

theorem completes_onField {α : Type} {f : StagedField} {x : Option α} {rule : α → Result} (hx : x ≠ none)
    (h : ∀ a, Completes (rule a)) : Completes (onField f x rule) := by
  obtain ⟨a, rfl⟩ := Option.ne_none_iff_exists'.mp hx
  exact h a

theorem completes_ite {c : Prop} [Decidable c] {x y : Result} (hx : Completes x) (hy : Completes y) :
    Completes (if c then x else y) := by
  split
  · exact hx
  · exact hy

/-- Outside IDLE there is a session record, and it holds what the phase's step reads (R33, R39, R43, R44). -/
def State.Staged (s : State) : Prop := ∀ ph, s.phase = ph → ph ≠ .idle → ∃ S, s.session = some S ∧ stagedAt ph S

theorem identRxStep_completes {s : State} {S : Session} (r : Bytes) (hs : s.session = some S) : Completes (identRxStep r s) := by
  refine completes_onSession hs (completes_ite (completes_next _) ?_)
  split
  · exact completes_next _
  · exact completes_ite (completes_next _) (completes_next _)

theorem respRxStep_completes {s : State} {S : Session} (r : Bytes) (hs : s.session = some S) : Completes (respRxStep r s) :=
  completes_onSession hs (completes_ite (completes_next _) (completes_next _))

theorem dataStep_completes {s : State} {S : Session} (hs : s.session = some S) (hb : S.pending ≠ none) :
    Completes (dataStep s) := by
  refine completes_onSession hs (completes_onField hb fun body => ?_)
  split <;> exact completes_next _

/-- Every phase's step completes where it finds what it reads (R241). -/
theorem internalStep_completes {s : State} (r : Bytes) (h : s.Staged) : Completes (internalStep r s) := by
  unfold internalStep
  cases hp : s.phase with
  | idle | awaitPassword | cmdPrompt | awaitCmdText | discEntry | identTx | discFinal => exact completes_next _
  | identRx =>
    obtain ⟨S, hs, -⟩ := h _ hp nofun
    exact identRxStep_completes r hs
  | negTx =>
    obtain ⟨S, hs, hbaud⟩ := h _ hp nofun
    exact completes_onSession hs (completes_onField hbaud fun _ => completes_next _)
  | respRx =>
    obtain ⟨S, hs, -⟩ := h _ hp nofun
    exact respRxStep_completes r hs
  | pwTx =>
    obtain ⟨S, hs, -, hpassword⟩ := h _ hp nofun
    exact completes_onSession hs (completes_onField hpassword fun _ => completes_next _)
  | data =>
    obtain ⟨S, hs, hpending⟩ := h _ hp nofun
    exact dataStep_completes hs hpending
  | xferExit =>
    obtain ⟨S, hs, -⟩ := h _ hp nofun
    exact completes_onSession hs (completes_ite (completes_next _) (completes_next _))
  | cmdTx =>
    obtain ⟨S, hs, -, hhead, hbody⟩ := h _ hp nofun
    exact completes_onSession hs (completes_onField hhead fun _ => completes_onField hbody fun _ => completes_next _)
  | retry =>
    obtain ⟨S, hs, -⟩ := h _ hp nofun
    exact completes_onSession hs (completes_ite (completes_next _) (completes_next _))
  | error =>
    obtain ⟨S, hs, herr⟩ := h _ hp nofun
    exact completes_onSession hs (completes_onField herr fun _ => completes_next _)
  | done =>
    obtain ⟨S, hs, hresult⟩ := h _ hp nofun
    exact completes_onSession hs (completes_onField hresult fun _ => completes_next _)

/-- A record absent only in IDLE and coherent elsewhere holds what the phase's step reads. -/
theorem staged_of_coherent {s : State} (hidle : s.phase = .idle ↔ s.session = none)
    (hrecord : ∀ S, s.session = some S → SessionCoherent s.cfg s.phase S) : s.Staged := by
  rintro _ rfl hne
  obtain ⟨S, hs⟩ := Option.ne_none_iff_exists'.mp (mt hidle.mpr hne)
  exact ⟨S, hs, (hrecord S hs).staged⟩

theorem State.Coherent.toStaged {s : State} (hc : s.Coherent) : s.Staged := staged_of_coherent hc.idleIff hc.record

/-! ## No fault -/

/-- The step does not fault: it completes or is refused. -/
def NoFault (x : Result) : Prop := ∀ f, x ≠ .fault f

theorem Completes.noFault {x : Result} (h : Completes x) : NoFault x := by
  obtain ⟨t, rfl⟩ := h
  exact nofun

theorem noFault_refused (e : Refusal) : NoFault (.refused e) := nofun

section
variable {s : State} (h : s.Staged)
include h

/-- A message row is refused, or the phase's step. -/
theorem State.Staged.whenDue_noFault {due : Session → Prop} [DecidablePred due] {rule : State → Result}
    (hp : s.phase ≠ .idle) (hrule : rule s = internalStep [] s) : NoFault (whenDue due rule s) := by
  obtain ⟨S, hs, -⟩ := h _ rfl hp
  rw [whenDue, onSession_some _ hs, hrule]
  split
  · exact (internalStep_completes [] h).noFault
  · exact noFault_refused _

theorem State.Staged.receive_noFault (r : Bytes) : NoFault (receive r s) := by
  rw [receive_eq]
  split
  · exact (internalStep_completes r h).noFault
  · exact noFault_refused _

/-- An operator's answer that the phase awaits finds the record. -/
theorem State.Staged.answered_noFault {rule : Session → Result} (hp : s.phase ≠ .idle) (hrule : ∀ S, Completes (rule S)) :
    NoFault (onSession s rule) := by
  obtain ⟨S, hs, -⟩ := h _ rfl hp
  exact (completes_onSession hs (hrule S)).noFault

theorem State.Staged.execStep_completes : Completes (execStep s) := by
  unfold execStep
  split
  · exact internalStep_completes _ h
  · exact internalStep_completes _ h

theorem State.Staged.execInput_noFault (bs : Bytes) : NoFault (execInput bs s) := by
  unfold execInput
  split
  · exact h.answered_noFault (by simp [*]) fun _ => completes_next _
  · exact h.answered_noFault (by simp [*]) fun _ => completes_next _
  · exact noFault_refused _

theorem State.Staged.execChoice_noFault (c : Choice) : NoFault (execChoice c s) := by
  unfold execChoice
  split
  · cases c <;> exact h.answered_noFault (by simp [*]) fun _ => completes_next _
  · exact noFault_refused _

theorem State.Staged.execCancel_noFault : NoFault (execCancel s) := by
  unfold execCancel
  split
  · exact h.answered_noFault (by simp [*]) fun _ => completes_next _
  · exact h.answered_noFault (by simp [*]) fun _ => completes_next _
  · exact h.answered_noFault (by simp [*]) fun _ => completes_next _
  · exact noFault_refused _

theorem State.Staged.execError_noFault : NoFault (execError s) := by
  unfold execError
  split
  · rename_i hp
    simpa [internalStep, hp] using (internalStep_completes [] h).noFault
  · exact noFault_refused _

/-- Each message row is refused out of turn, and in its turn it is the phase's step. -/
theorem State.Staged.sends_noFault {i : Instr} (hi : sends i = true) : NoFault (exec i s) := by
  cases i with
  | disconnect =>
    simp only [exec, execDisconnect]
    split
    · exact (completes_next _).noFault
    · exact (completes_next _).noFault
    · exact noFault_refused _
  | ident =>
    simp only [exec, execIdent]
    split
    · exact (completes_next _).noFault
    · exact noFault_refused _
  | optsel | optselEncoded | password | read | write =>
    simp only [exec, execOptsel, execOptselEncoded, execPassword, execRead, execWrite]
    split
    · exact h.whenDue_noFault (by simp [*]) (by simp [internalStep, *])
    · exact noFault_refused _
  | _ => cases hi

end

theorem execStart_noFault (m : Mode) (s : State) : NoFault (execStart m s) := by
  unfold execStart
  split
  · exact (completes_next _).noFault
  · exact noFault_refused _

theorem onlyAnswers_noFault {i : Instr} (hi : onlyAnswers i = true) (s : State) : NoFault (exec i s) := by
  obtain ⟨o, hexec⟩ := exec_onlyAnswers hi s
  exact Completes.noFault ⟨_, hexec⟩

/-- A registry writer completes within a cycle and is refused between cycles (R85). -/
theorem writesRegistry_noFault {i : Instr} (hi : writesRegistry i = true) (s : State) : NoFault (exec i s) := by
  obtain ⟨o, reg, hexec, -⟩ := exec_writesRegistry hi s
  rw [hexec, duringCycle]
  split
  · exact noFault_refused _
  · exact (completes_next _).noFault

theorem State.Staged.exec_noFault {s : State} (h : s.Staged) (i : Instr) : NoFault (exec i s) := by
  cases i with
  | disconnect | ident | optsel | optselEncoded | password | read | write => exact h.sends_noFault rfl
  | rxIdentReply r | rxP0 r | rxNak r | rxTimeout r | rxAck r | rxUnexpectedHead r | rxDataValid r | rxDataInvalid r =>
    exact h.receive_noFault r
  | encode | checksum | decode | statusParse | statusDecode | regSnapshot | parseLine | parseBody | classify =>
    exact onlyAnswers_noFault rfl s
  | regUpdate | applyFrame => exact writesRegistry_noFault rfl s
  | step => exact h.execStep_completes.noFault
  | start m => exact execStart_noFault m s
  | input bs => exact h.execInput_noFault bs
  | choice c => exact h.execChoice_noFault c
  | cancel => exact h.execCancel_noFault
  | error => exact h.execError_noFault

/-- In a phase with no internal step STEP changes nothing (R241; log 7). -/
theorem exec_step_waits {s : State} (h : waits s.phase = true) : exec .step s = .next s := by
  have hreads : s.phase.reads = false := by
    revert h
    cases s.phase <;> simp [waits, Phase.reads]
  rw [exec_step_of_not_reads hreads, internalStep]
  revert h
  cases s.phase <;> simp [waits]

/-- Settles O47: a coherent record holds what every rule reads, so the rules complete and the rest is refused. -/
theorem coherentStatesNeverFault : Obligations.CoherentStatesNeverFault := by
  intro s hc
  exact ⟨hc.toStaged.exec_noFault, hc.toStaged.execStep_completes, exec_step_waits⟩

end Sys2Proof.Machine
end

section
/-! Support and proofs. A read session ends (R279(a)): each of its steps completes and lowers the number of steps that are left at
most, the restarts the budget still allows counted with six steps each (R274). -/

namespace Sys2Proof.Machine

/-- How many steps a read session in that phase takes to IDLE at most, without a further restart. -/
def Phase.readRank : Phase → Nat
  | .discEntry => 8
  | .identTx => 7
  | .identRx => 6
  | .negTx => 5
  | .respRx => 4
  | .data | .retry => 3
  | .xferExit | .error => 2
  | .done => 1
  | .idle | .awaitPassword | .pwTx | .cmdPrompt | .awaitCmdText | .cmdTx | .discFinal => 0

/-- How many steps a read session takes to IDLE at most: a restart goes back from RETRY to DISC_ENTRY, five ranks up, so six steps
for each that the budget allows outweigh it. -/
def stepsLeft (s : State) : Nat :=
  s.session.elim 0 fun S => s.phase.readRank + 6 * (s.cfg.retryLimit - S.retries)

/-- A read session, or its end: the record is absent exactly in IDLE, coherent elsewhere, and of a read mode. -/
structure ReadSession (s : State) : Prop where
  idleIff : s.phase = .idle ↔ s.session = none
  record : ∀ S, s.session = some S → SessionCoherent s.cfg s.phase S
  read : ∀ S, s.session = some S → S.mode ≠ .program

theorem readSession_started (s : State) {m : Mode} (hm : m ≠ .program) : ReadSession (started s m) where
  idleIff := by simp
  record := by rintro _ ⟨⟩; exact .fresh s.cfg m
  read := by rintro _ ⟨⟩; exact hm

theorem SessionMove.readSession {r : Bytes} {s t : State} (h : SessionMove r s t) (hs : ReadSession s) : ReadSession t where
  idleIff := h.idle_iff hs.idleIff
  record := fun _ ht => h.sessionCoherent hs.record ht
  read := fun S' ht => by
    obtain ⟨S, hS, hw⟩ := h.writtenByRules ht
    rw [hw.mode]
    exact hs.read S hS

/-- No step of a read session waits for the operator: the suspended phases are those of a Program session (R345). -/
theorem ReadSession.not_suspended {s : State} (hs : ReadSession s)
    (hp : s.phase = .awaitPassword ∨ s.phase = .cmdPrompt ∨ s.phase = .awaitCmdText) : False := by
  have hne : s.phase ≠ .idle := by rcases hp with hp | hp | hp <;> simp [hp]
  obtain ⟨S, hS⟩ := Option.ne_none_iff_exists'.mp (mt hs.idleIff.mpr hne)
  have hstaged := (hs.record S hS).staged
  refine hs.read S hS ?_
  rcases hp with hp | hp | hp <;> rw [hp] at hstaged
  · exact hstaged
  · exact hstaged
  · exact hstaged.1

/-- Outside IDLE every step of a read session brings it nearer to its end. -/
theorem SessionMove.stepsLeft_lt {r : Bytes} {s t : State} (h : SessionMove r s t) (hs : ReadSession s)
    (hp : s.phase ≠ .idle) : stepsLeft t < stepsLeft s := by
  obtain ⟨S₀, hS₀⟩ := Option.ne_none_iff_exists'.mp (mt hs.idleIff.mpr hp)
  have hread := hs.read S₀ hS₀
  have hstaged := (hs.record S₀ hS₀).staged
  cases h with
  | wait hw => exact (hs.not_suspended (hw.resolve_left hp)).elim
  | challengePrompt S _ _ hS hm | challengeAgain S _ _ hS hm | challengeExhausted S _ _ hS hm =>
    exact absurd hm (hs.read S hS)
  | pwTx _ _ hph | cmdTx _ _ _ hph | discFinal hph =>
    rw [hph] at hstaged
    exact absurd hstaged.1 hread
  | askChoice S _ hS hc => exact absurd ((hs.record S hS).mode_of_commandMode hc) (hs.read S hS)
  | again S hph hS hr =>
    simp [stepsLeft, hph, hS, Phase.readRank]
    omega
  | overflow S hph hS => rcases hph with hph | hph <;> simp [stepsLeft, hph, hS, Phase.readRank]
  | discEntry hph | identTx hph => simp [stepsLeft, hph, hS₀, Phase.readRank]
  | finish S _ hph hS | baud S _ hph hS | identSilent S hph hS | identShort S hph hS | negTx S _ hph hS
  | challengeRefused S _ hph hS | restart S _ _ _ hph hS | ack S _ hph hS | respRaise S _ _ _ hph hS | stage S _ _ hph hS
  | malformed S _ hph hS | publish S _ _ hph hS | readEnds S hph hS | exhausted S hph hS | report S _ hph hS =>
    simp [stepsLeft, hph, hS, Phase.readRank]

/-- The next step of a read session completes and brings it nearer to its end, whatever is read. -/
theorem ReadSession.exists_stepWithRead {s : State} (hs : ReadSession s) (r : Bytes) (hp : s.phase ≠ .idle) :
    ∃ t, stepWithRead r s = .next t ∧ ReadSession t ∧ stepsLeft t < stepsLeft s := by
  rw [stepWithRead_eq]
  obtain ⟨t, ht⟩ := internalStep_completes (if s.phase.reads then r else []) (staged_of_coherent hs.idleIff hs.record)
  have hmove := internalStep_move ht
  exact ⟨t, ht, hmove.readSession hs, hmove.stepsLeft_lt hs hp⟩

/-- With as many read results as steps are left a read session comes to IDLE. -/
theorem ReadSession.reaches_idle {rs : List Bytes} {s : State} (hs : ReadSession s) (hlen : stepsLeft s ≤ rs.length) :
    ∃ n u, n ≤ rs.length ∧ runReads (rs.take n) s = .next u ∧ u.phase = .idle := by
  induction rs generalizing s with
  | nil =>
    refine ⟨0, s, le_rfl, rfl, ?_⟩
    by_contra hp
    obtain ⟨t, -, -, hlt⟩ := hs.exists_stepWithRead [] hp
    exact absurd (hlt.trans_le hlen) (Nat.not_lt_zero _)
  | cons r rs ih =>
    by_cases hp : s.phase = .idle
    · exact ⟨0, s, Nat.zero_le _, rfl, hp⟩
    · obtain ⟨t, hstep, ht, hlt⟩ := hs.exists_stepWithRead r hp
      obtain ⟨n, u, hn, hrun, hu⟩ := ih ht (Nat.le_of_lt_succ (hlt.trans_le hlen))
      exact ⟨n + 1, u, Nat.succ_le_succ hn, by simp [runReads, hstep, hrun], hu⟩

/-- Settles O51: START leaves the whole budget and the eight steps of the last handshake. -/
theorem readSessionEndsWithinBound : Obligations.ReadSessionEndsWithinBound := by
  intro s m rs hp hm hlen
  have hleft : stepsLeft (started s m) = 6 * (s.cfg.retryLimit + 1) + 2 := by
    simp [stepsLeft, freshSession, Phase.readRank]
    omega
  exact ⟨started s m, exec_start_idle m hp, (readSession_started s hm).reaches_idle (by rw [hleft, hlen])⟩

end Sys2Proof.Machine
end

section
/-! Support and proofs. What the block does with a read result (R244 to R257, R278): the eight received rows are one step, which
takes the branch that the result's bytes decide. -/

namespace Sys2Proof.Machine

open Terms

/-! ## CLASSIFY -/

/-- Settles O13: the head P0 first, then the three control bodies, then whether the head is known. -/
theorem classifyTakesFirstMatch : Obligations.ClassifyTakesFirstMatch := by
  intro f s
  refine ⟨classify f, rfl, ?_⟩
  by_cases hchallenge : f.head = headP0
  · simp [classify, hchallenge]
  by_cases hnak : f.body = [nakByte]
  · simp_all [classify, headP0]
  by_cases hsilent : f.body = []
  · simp_all [classify, headP0]
  by_cases hack : f.body = [ackByte]
  · simp_all [classify, headP0]
  by_cases hknown : f.head = [] ∨ f.head = headB0
  · rcases hknown with hhead | hhead <;> simp_all [classify, headP0, headB0]
  · simp_all [classify, headP0, headB0]

/-! ## The received rows -/

/-- Every received row is the read result it holds. -/
theorem exec_rx {i : Instr} {r : Bytes} (hi : encode i = .rx r) (s : State) : exec i s = receive r s := by
  cases i with
  | rxIdentReply | rxP0 | rxNak | rxTimeout | rxAck | rxUnexpectedHead | rxDataValid | rxDataInvalid => cases hi; rfl
  | _ => cases hi

theorem overflows_iff_not_fits {p : Params} {r : Bytes} : overflows p r = true ↔ ¬Fits p r := by
  unfold overflows Fits
  cases p.maxFrameLen <;> simp

theorem fits_nil (p : Params) : Fits p [] := fun _ _ => Nat.zero_le _

/-- A result that is too long raises FrameOverflow where the phase reads (R245). -/
theorem exec_rx_overflow {i : Instr} {r : Bytes} {s : State} {S : Session} (hi : encode i = .rx r)
    (hp : s.phase = .identRx ∨ s.phase = .respRx) (hs : s.session = some S) (hlong : ¬Fits s.cfg r) :
    exec i s = .next (raiseError .frameOverflow S (s.record (.rx r))) := by
  have hover := overflows_iff_not_fits.mpr hlong
  rw [exec_rx hi, receive_eq, if_pos hp]
  rcases hp with hp | hp <;> simp [internalStep, hp, identRxStep, respRxStep, hs, hover]

/-- Settles O31: STEP draws the read result and runs as its row (R278). -/
theorem stepTakesFreeReadResult : Obligations.StepTakesFreeReadResult := by
  intro s hp
  have hreads : s.phase.reads = true := Phase.reads_iff.mpr hp
  rw [exec_decodeRx, exec, execStep, if_pos hreads]
  exact (receive_of_reads (s := { s with draws := s.draws + 1 }) _ hreads).symm

/-! ## IDENT_RX -/

theorem exec_rx_identRx {i : Instr} {r : Bytes} (hi : encode i = .rx r) {s : State} (hp : s.phase = .identRx) :
    exec i s = identRxStep r s := by
  rw [exec_rx hi, receive, hp]

/-- Settles O25: too long, or the byte at index 4, or none there: silent or short. -/
theorem identReplyGivesBaudOrRestarts : Obligations.IdentReplyGivesBaudOrRestarts := by
  intro s S r i hi hp hs
  have hi := mem_rxRows.mp hi
  refine ⟨exec_rx_overflow hi (.inl hp) hs, fun z hfits hz => ?_, fun hfits hr => ?_, fun hfits hne hshort => ?_⟩
  · rw [exec_rx_identRx hi hp]
    simp [identRxStep, hs, overflows_eq_false hfits, hz]
    rfl
  · subst hr
    rw [exec_rx_identRx hi hp]
    simp [identRxStep, hs, overflows_eq_false hfits]
    rfl
  · have hz : r[4]? = none := List.getElem?_eq_none (by omega)
    rw [exec_rx_identRx hi hp]
    simp [identRxStep, hs, overflows_eq_false hfits, hz, List.length_pos_iff.mp hne]
    rfl

/-- Settles O26: the length is looked at before anything else, at both phases. -/
theorem overlongReadRaisesFrameOverflow : Obligations.OverlongReadRaisesFrameOverflow := by
  intro s S r i n hi hp hs hn hlong
  exact exec_rx_overflow (mem_rxRows.mp hi) hp hs fun hfits => absurd (hfits n hn) (by omega)

/-! ## RESP_RX -/

/-- The branch that a decoded response takes (R248). -/
def respond (f : Frame) (S : Session) (t : State) : State :=
  match classify f with
  | .passwordChallenge => challengeBranch S t
  | .nak => nakBranch S t
  | .timeout => timeoutBranch S t
  | .ack => ackBranch S t
  | .unexpectedHead => unexpectedHeadBranch S t
  | .data => if f.checksumValid then dataBranch f.body S t else mismatchBranch S t

section
variable {f : Frame} {S : Session} {t : State}

theorem respond_challenge (hh : f.head = headP0) : respond f S t = challengeBranch S t := by
  simp [respond, classify, hh]

theorem respond_nak (hh : f.head ≠ headP0) (hb : f.body = [nakByte]) : respond f S t = nakBranch S t := by
  simp [respond, classify, hh, hb]

theorem respond_timeout (hh : f.head ≠ headP0) (hb : f.body = []) : respond f S t = timeoutBranch S t := by
  simp [respond, classify, hh, hb]

theorem respond_ack (hh : f.head ≠ headP0) (hb : f.body = [ackByte]) : respond f S t = ackBranch S t := by
  simp [respond, classify, hh, hb]

theorem respond_unexpectedHead (hh : f.head ≠ headP0) (hb : f.body ∉ [[], [nakByte], [ackByte]])
    (hhead : f.head ∉ [[], headB0]) : respond f S t = unexpectedHeadBranch S t := by
  simp_all [respond, classify]

theorem respond_data (hb : f.body ∉ [[], [nakByte], [ackByte]]) (hhead : f.head ∈ [[], headB0]) :
    respond f S t = if f.checksumValid then dataBranch f.body S t else mismatchBranch S t := by
  have hknown : f.head = [] ∨ f.head = headB0 := by simpa using hhead
  have hh : f.head ≠ headP0 := by rcases hknown with h | h <;> simp [h, headB0, headP0]
  simp only [List.mem_cons, List.not_mem_nil, or_false, not_or] at hb
  obtain ⟨hsilent, hnak, hack⟩ := hb
  have hclass : classify f = .data := by
    rw [classify, if_neg hh, if_neg hnak, if_neg hsilent, if_neg hack, if_neg (by tauto)]
  rw [respond, hclass]

theorem challengeBranch_refused (hm : S.mode ≠ .program) : challengeBranch S t = raiseError .unexpectedHead S t := if_pos hm

theorem challengeBranch_prompt (hm : S.mode = .program) (hw : S.password = none) :
    challengeBranch S t = ((t.setSession S).record (.prompt .password)).moveTo .awaitPassword := by
  rw [challengeBranch, if_neg (not_not.mpr hm), if_pos hw]

theorem challengeBranch_again (hm : S.mode = .program) (hw : S.password ≠ none) (hr : S.retries < t.cfg.retryLimit) :
    challengeBranch S t =
      (t.setSession { S with lastCause := some .repeatedChallenge, retries := S.retries + 1 }).moveTo .pwTx := by
  rw [challengeBranch, if_neg (not_not.mpr hm), if_neg hw, if_pos hr]

theorem challengeBranch_exhausted (hm : S.mode = .program) (hw : S.password ≠ none) (hr : t.cfg.retryLimit ≤ S.retries) :
    challengeBranch S t = raiseError .retryExhausted { S with lastCause := some .repeatedChallenge } t := by
  rw [challengeBranch, if_neg (not_not.mpr hm), if_neg hw, if_neg (Nat.not_lt.mpr hr)]

end

/-- A read result that fits takes the branch of its frame, with the read and the head recorded before (R248). -/
theorem exec_rx_respRx {i : Instr} {r : Bytes} {s : State} {S : Session} (hi : encode i = .rx r) (hp : s.phase = .respRx)
    (hs : s.session = some S) (hfits : Fits s.cfg r) :
    exec i s = .next (respond (decodeFrame r) { S with head := (decodeFrame r).head } (s.record (.rx r))) := by
  rw [exec_rx hi, receive, hp, respond]
  simp only [respRxStep, onSession_some _ hs, overflows_eq_false hfits]
  rfl

/-- Settles O28: with a head other than P0 the body alone decides. -/
theorem nakTimeoutAndAckAreTakenByBody : Obligations.NakTimeoutAndAckAreTakenByBody := by
  intro s S r h b v hp hs hfits hf hh
  refine ⟨fun hb => ?_, fun hb => ?_, fun hb => ?_⟩
  · rw [exec_rx_respRx rfl hp hs hfits, hf, respond_nak hh hb]
    rfl
  · rw [exec_rx_respRx rfl hp hs hfits, hf, respond_timeout hh hb]
    rfl
  · rw [exec_rx_respRx rfl hp hs hfits, hf, respond_ack hh hb]
    rfl

/-- Settles O29: the branches of the challenge, by mode, password and budget. -/
theorem passwordChallengeIsHonouredInProgramOnly : Obligations.PasswordChallengeIsHonouredInProgramOnly := by
  intro s S r b v hp hs hfits hf
  have hexec := exec_rx_respRx (i := .rxP0 r) rfl hp hs hfits
  rw [hf, respond_challenge rfl] at hexec
  rw [hexec]
  refine ⟨fun hm => ?_, fun hm hw => ?_, fun hm hw hr => ?_, fun hm hw hr => ?_⟩
  · exact congrArg Host.Outcome.next (challengeBranch_refused hm)
  · rw [challengeBranch_prompt (S := { S with head := headP0 }) hm hw]
    simp [State.record, State.setSession, State.moveTo]
  · exact congrArg Host.Outcome.next (challengeBranch_again hm hw hr)
  · exact congrArg Host.Outcome.next (challengeBranch_exhausted hm hw hr)

/-- Settles O30: an unknown head raises first, and known data goes by its checksum. -/
theorem dataResponseIsStagedOrRaises : Obligations.DataResponseIsStagedOrRaises := by
  intro s S r h b v hp hs hfits hf hh hb
  refine ⟨fun hhead => ?_, fun hhead hv => ?_, fun hhead hv => ?_⟩
  · rw [exec_rx_respRx rfl hp hs hfits, hf, respond_unexpectedHead hh hb hhead]
    rfl
  · rw [exec_rx_respRx rfl hp hs hfits, hf, respond_data hb hhead, if_pos hv]
    rfl
  · rw [exec_rx_respRx rfl hp hs hfits, hf, respond_data hb hhead, if_neg (by simp [hv])]
    rfl

end Sys2Proof.Machine
end

section
/-! Support and proofs. A timeout and a NAK at RESP_RX (R250, R251, R275): after either the two runs stand abreast, and every step
of the machine keeps them so. -/

namespace Sys2Proof.Machine

open Terms

section
variable {t t' u u' : State} (h : Abreast t t' u u')
include h

theorem Abreast.counter_eq : u.counter = u'.counter := by
  obtain ⟨-, -, -, -, hcounter, -⟩ := unobserved_eq_iff.mp h.unobserved_eq
  exact hcounter

theorem Abreast.commands_eq : u.commands = u'.commands := by
  obtain ⟨-, -, -, -, -, -, hcommands, -⟩ := unobserved_eq_iff.mp h.unobserved_eq
  exact hcommands

theorem Abreast.take (cs : List Command) : Abreast t t' { u with commands := cs } { u' with commands := cs } :=
  h.update [] (by simp) (by simp) (by simp +contextual [unobserved_eq_iff])

theorem Abreast.loopStopped_eq : loopStopped u = loopStopped u' := by
  unfold loopStopped
  rw [h.cfg_eq, h.counter_eq]

/-- The sequencer is due in both runs or in neither (R310). -/
theorem Abreast.sequencerDue_iff : sequencerDue u ↔ sequencerDue u' := by
  rw [sequencerDue, sequencerDue, h.phase_eq, h.cfg_eq, h.loopStopped_eq]

theorem Abreast.ownInstr_eq : ownInstr u = ownInstr u' := by
  unfold ownInstr
  simp only [h.sequencerDue_iff, h.counter_eq]

theorem Abreast.claimCycle : Abreast t t' (claimCycle u) (claimCycle u') := by
  unfold Machine.claimCycle
  simp only [h.sequencerDue_iff]
  split
  · exact h.update [] (by simp) (by simp) (by simp +contextual [unobserved_eq_iff])
  · exact h

theorem Abreast.fetch_eq (c : Command) : fetch u c = fetch u' c := by
  rw [fetch, fetch, h.phase_eq]

/-- A step of the machine keeps two runs abreast, whatever last cause and trace they hold. -/
theorem Abreast.step : SameFromHere t t' (Machine.step u) (Machine.step u') := by
  unfold Machine.step
  rw [← h.commands_eq]
  split
  · rw [← h.ownInstr_eq]
    exact h.claimCycle.exec _
  · rw [← h.fetch_eq]
    split
    · exact (h.take _).exec _
    · rfl

end

theorem core_run_succ_next {s t : State} (h : Machine.step s = .next t) (n : Nat) :
    Host.Core.run core (n + 1) s = Host.Core.run core n t := by
  have h : core.step s = .next t := h
  simp only [Host.Core.run, h]

theorem core_run_succ_fault {s : State} {f : Fault} (h : Machine.step s = .fault f) (n : Nat) :
    Host.Core.run core (n + 1) s = .fault f := by
  have h : core.step s = .fault f := h
  simp only [Host.Core.run, h]

theorem core_run_succ_refused {s : State} {e : Refusal} (h : Machine.step s = .refused e) (n : Nat) :
    Host.Core.run core (n + 1) s = .refused e := by
  have h : core.step s = .refused e := h
  simp only [Host.Core.run, h]

/-- Two outcomes that agree are of one kind. -/
theorem SameFromHere.cases {t t' : State} {x x' : Result} (h : SameFromHere t t' x x') :
    (∃ v v', x = .next v ∧ x' = .next v' ∧ Abreast t t' v v') ∨ (∃ f, x = .fault f ∧ x' = .fault f) ∨
      ∃ e, x = .refused e ∧ x' = .refused e := by
  cases x with
  | next v =>
    cases x' with
    | next v' => exact .inl ⟨v, v', rfl, rfl, h⟩
    | fault | refused => exact h.elim
  | fault f =>
    cases x' with
    | fault f' => obtain rfl : f = f' := h; exact .inr (.inl ⟨f, rfl, rfl⟩)
    | next | refused => exact h.elim
  | refused e =>
    cases x' with
    | refused e' => obtain rfl : e = e' := h; exact .inr (.inr ⟨e, rfl, rfl⟩)
    | next | fault => exact h.elim

/-- So does every run of the machine. -/
theorem Abreast.run {t t' u u' : State} (h : Abreast t t' u u') (n : Nat) :
    SameFromHere t t' (Host.Core.run core n u) (Host.Core.run core n u') := by
  induction n generalizing u u' with
  | zero => exact h
  | succ n ih =>
    obtain ⟨v, v', hu, hu', hv⟩ | ⟨f, hu, hu'⟩ | ⟨e, hu, hu'⟩ := h.step.cases
    · rw [core_run_succ_next hu, core_run_succ_next hu']
      exact ih hv
    · rw [core_run_succ_fault hu, core_run_succ_fault hu']
      rfl
    · rw [core_run_succ_refused hu, core_run_succ_refused hu']
      rfl

/-- Settles O52: the two branches differ in the last cause and in the read result recorded, and both go to RETRY. -/
theorem timeoutAndNakBehaveAlike : Obligations.TimeoutAndNakBehaveAlike := by
  intro s S hp hs hfits
  have htimeout := exec_rx_respRx (i := .rxTimeout []) rfl hp hs (fits_nil s.cfg)
  have hnak := exec_rx_respRx (i := .rxNak [0x15]) rfl hp hs hfits
  refine ⟨_, _, htimeout, hnak, rfl, fun n => Abreast.run (Abreast.refl ?_) n⟩
  rfl

end Sys2Proof.Machine
end

section
/-! Support and proofs. The messages the block sends in their phases (R242, R243, R246, R259, R270, R272): STEP and the message row
are the same step, and each message written out from its operands. -/

namespace Sys2Proof.Machine

open Terms

/-! ## STEP and the message row -/

/-- STEP at a phase that reads nothing is the step of that phase (R241). -/
theorem exec_step_at {s : State} {ph : Phase} (hp : s.phase = ph) (hreads : ph.reads = false := by rfl) :
    exec .step s = internalStep [] s :=
  exec_step_of_not_reads (hp ▸ hreads)

/-- A message row whose operands are those of the session record runs the rule. -/
theorem whenDue_of_due {due : Session → Prop} [DecidablePred due] {s : State} {S : Session} (hs : s.session = some S)
    (hdue : due S) (rule : State → Result) : whenDue due rule s = rule s := by
  rw [whenDue, onSession_some _ hs, if_pos hdue]

theorem exec_discEntry {s : State} {i : Instr} (hp : s.phase = .discEntry) (hi : i = .step ∨ i = .disconnect) :
    exec i s = discEntryStep s := by
  rcases hi with rfl | rfl
  · rw [exec_step_at hp, internalStep, hp]
  · rw [exec, execDisconnect, hp]

theorem exec_identTx {s : State} {i : Instr} (hp : s.phase = .identTx) (hi : i = .step ∨ i = .ident) :
    exec i s = identTxStep s := by
  rcases hi with rfl | rfl
  · rw [exec_step_at hp, internalStep, hp]
  · rw [exec, execIdent, hp]

theorem exec_discFinal {s : State} {i : Instr} (hp : s.phase = .discFinal) (hi : i = .step ∨ i = .disconnect) :
    exec i s = discFinalStep s := by
  rcases hi with rfl | rfl
  · rw [exec_step_at hp, internalStep, hp]
  · rw [exec, execDisconnect, hp]

section
variable {s : State} {S : Session} {i : Instr} (hs : s.session = some S)
include hs

/-- NEG_TX by STEP, or by the row of the framing in force with the record's operands (R246). -/
theorem exec_negTx {z y : Byte} (hp : s.phase = .negTx) (hz : S.baud = some z) (hy : modeDigit S = y)
    (hi : i = .step ∨ (s.cfg.negFraming = .raw ∧ i = .optsel z y) ∨
      (s.cfg.negFraming = .encoded ∧ i = .optselEncoded z y)) :
    exec i s = .next ((s.send (negotiationMsg s.cfg.negFraming z y)).moveTo .respRx) := by
  have hrule : negTxStep s = .next ((s.send (negotiationMsg s.cfg.negFraming z y)).moveTo .respRx) := by
    rw [negTxStep, onSession_some _ hs, hz, onField_some, hy]
  rw [← hrule]
  rcases hi with rfl | ⟨hf, rfl⟩ | ⟨hf, rfl⟩
  · rw [exec_step_at hp, internalStep, hp]
  · rw [exec, execOptsel, hp]
    exact whenDue_of_due hs ⟨hf, hz, hy⟩ _
  · rw [exec, execOptselEncoded, hp]
    exact whenDue_of_due hs ⟨hf, hz, hy⟩ _

/-- PW_TX by STEP or by the row with the cached password (R259). -/
theorem exec_pwTx {pw : Bytes} (hp : s.phase = .pwTx) (hw : S.password = some pw) (hi : i = .step ∨ i = .password pw) :
    exec i s = .next ((s.send (passwordMsg pw)).moveTo .respRx) := by
  have hrule : pwTxStep s = .next ((s.send (passwordMsg pw)).moveTo .respRx) := by
    rw [pwTxStep, onSession_some _ hs, hw, onField_some]
  rw [← hrule]
  rcases hi with rfl | rfl
  · rw [exec_step_at hp, internalStep, hp]
  · rw [exec, execPassword, hp]
    exact whenDue_of_due hs hw _

/-- The row that sends the command (R114). -/
def commandRow (h : CmdHead) (t : Bytes) : Instr :=
  match h with
  | .r1 => .read t
  | .w1 => .write t

/-- CMD_TX by STEP or by the row with the staged command (R270). -/
theorem exec_cmdTx {h : CmdHead} {t : Bytes} (hp : s.phase = .cmdTx) (hh : S.cmdHead = some h) (ht : S.cmdBody = some t)
    (hi : i = .step ∨ i = commandRow h t) :
    exec i s = .next (((s.send (commandMsg h t)).setSession { S with cmdHead := none, cmdBody := none }).moveTo .respRx) := by
  have hrule : cmdTxStep s =
      .next (((s.send (commandMsg h t)).setSession { S with cmdHead := none, cmdBody := none }).moveTo .respRx) := by
    rw [cmdTxStep, onSession_some _ hs, hh, ht, onField_some, onField_some]
  rw [← hrule]
  rcases hi with rfl | rfl
  · rw [exec_step_at hp, internalStep, hp]
  · cases h with
    | r1 =>
      rw [commandRow, exec, execRead, hp]
      exact whenDue_of_due hs ⟨hh, ht⟩ _
    | w1 =>
      rw [commandRow, exec, execWrite, hp]
      exact whenDue_of_due hs ⟨hh, ht⟩ _

end

/-! ## The messages written out -/

/-- A frame with a head: SOH, what is summed, and its sum (R102). -/
theorem encodeFrame_of_head {h : Bytes} (hh : h ≠ []) (b : Bytes) :
    encodeFrame h b = [soh] ++ (h ++ bodyPart b ++ [etx]) ++ [bcc (h ++ bodyPart b ++ [etx])] := by
  simp [encodeFrame, frameBytes_eq_opening, frameOpening, hh, checksum_start_eq_bcc]

/-- A frame of a body alone: STX, what is summed, and its sum (R102). -/
theorem encodeFrame_of_body {b : Bytes} (hb : b ≠ []) :
    encodeFrame [] b = [stx] ++ (b ++ [etx]) ++ [bcc (b ++ [etx])] := by
  simp [encodeFrame, frameBytes_eq_opening, frameOpening, bodyPart, hb, checksum_start_eq_bcc]

theorem disconnectMsg_eq : disconnectMsg = [0x01, 0x42, 0x30, 0x03, 0x75] := by decide

theorem optselEncodedMsg_eq (z y : Byte) :
    optselEncodedMsg z y = [0x02, 0x06, 0x30, z, y, 0x0D, 0x0A, 0x03, bcc [0x06, 0x30, z, y, 0x0D, 0x0A, 0x03]] :=
  encodeFrame_of_body (List.cons_ne_nil _ _)

theorem passwordMsg_eq (pw : Bytes) :
    passwordMsg pw = [0x01, 0x50, 0x31, 0x02, 0x28] ++ pw ++
      [0x29, 0x03, bcc ([0x50, 0x31, 0x02, 0x28] ++ pw ++ [0x29, 0x03])] := by
  rw [passwordMsg, encodeFrame_of_head (List.cons_ne_nil _ _)]
  simp [bodyPart]

/-! ## The sending phases -/

/-- Settles O24: each of the three steps sends one fixed message. -/
theorem fixedMessagesAreSentInTheirPhases : Obligations.FixedMessagesAreSentInTheirPhases := by
  intro s
  refine ⟨fun hp i hi => ?_, fun hp i hi => exec_identTx hp hi, fun hp i hi => ?_⟩
  · rw [exec_discEntry hp hi, discEntryStep, disconnectMsg_eq]
    rfl
  · rw [exec_discFinal hp hi, discFinalStep, disconnectMsg_eq]
    rfl

/-- Settles O27: the message of the framing in force, raw as it stands or as the body of a frame. -/
theorem optionSelectEchoesBaudAndModeDigit : Obligations.OptionSelectEchoesBaudAndModeDigit := by
  intro s S z y hp hs hz hy
  have hdigit : modeDigit S = y := by simp [modeDigit, hy]
  refine ⟨fun hf i hi => ?_, fun hf i hi => ?_⟩
  · rw [exec_negTx hs hp hz hdigit (hi.imp_right fun h => .inl ⟨hf, h⟩), hf]
    rfl
  · rw [exec_negTx hs hp hz hdigit (hi.imp_right fun h => .inr ⟨hf, h⟩), hf, negotiationMsg, optselEncodedMsg_eq]
    rfl

/-- Settles O32: the P1 frame with its check byte. -/
theorem passwordFrameCarriesThePassword : Obligations.PasswordFrameCarriesThePassword := by
  intro s S pw i hi hp hs hw
  rw [exec_pwTx hs hp hw hi, passwordMsg_eq]
  rfl

/-- Settles O35: both heads give a frame with a head, and an empty text leaves out STX and body. -/
theorem commandFrameCarriesTheText : Obligations.CommandFrameCarriesTheText := by
  intro s S t m h i hp hs hh ht hi hm
  have hframe : commandMsg h t = [0x01] ++ m ++ [bcc m] := by
    rw [hm, commandMsg, encodeFrame_of_head (by cases h <;> exact List.cons_ne_nil _ _)]
    cases h <;> rfl
  rw [exec_cmdTx hs hp hh ht (by cases h <;> exact hi), hframe]
  rfl

end Sys2Proof.Machine
end

section
/-! Support and proofs. The phases that neither send nor read: DATA, XFER_EXIT, RETRY and DONE (R262, R266, R274, R276), the prompts
(R258, R268, R269), what is refused out of turn (R241), and which instruction a step of the machine runs (R310, R319). -/

namespace Sys2Proof.Machine

open Terms

/-! ## DATA -/

section
variable {s : State} {S : Session} {body : Bytes} (hp : s.phase = .data) (hs : s.session = some S) (hb : S.pending = some body)
include hp hs hb

/-- A frame that APPLY_FRAME refuses raises MalformedStatus (R265). -/
theorem exec_step_data_none (ha : applyFrame s.cfg body s.registry = none) :
    exec .step s = .next (raiseError .malformedStatus S s) := by
  simp only [exec_step_at hp, internalStep, hp, dataStep, onSession_some _ hs, hb, onField_some, ha]

/-- A frame that APPLY_FRAME takes is declared, committed and published (R262). -/
theorem exec_step_data_some {reg : List Entry} (ha : applyFrame s.cfg body s.registry = some reg) :
    exec .step s = .next (((((declareOnce S s).commit reg).publishAll).setSession
      { S with schemaDeclared := S.schemaDeclared || declaresSchema S, pending := none }).moveTo .xferExit) := by
  simp only [exec_step_at hp, internalStep, hp, dataStep, onSession_some _ hs, hb, onField_some, ha]

end

theorem declaresSchema_iff {S : Session} : declaresSchema S = true ↔ S.isShortCycle = false ∧ S.schemaDeclared = false := by
  simp [declaresSchema]

/-- The mark that DATA leaves: the schema is declared now, unless the cycle is a short one (R263). -/
theorem declared_or_declaresSchema (S : Session) :
    (S.schemaDeclared || declaresSchema S) = (S.schemaDeclared || !S.isShortCycle) := by
  cases hd : S.schemaDeclared <;> simp [declaresSchema, hd]

/-- Settles O33: APPLY_FRAME answers nothing exactly for a malformed body; else the events are those of DATA. -/
theorem dataStepDeclaresCommitsPublishes : Obligations.DataStepDeclaresCommitsPublishes := by
  intro s S body hp hs hb
  refine ⟨fun hbad => exec_step_data_none hp hs hb (applyFrame_eq_none_iff.mpr hbad), fun hwf => ?_⟩
  obtain ⟨reg, happly⟩ := exists_applyFrame hwf s.cfg s.registry
  refine ⟨reg, happly, ?_⟩
  rw [exec_step_data_some hp hs hb happly]
  simp only [declared_or_declaresSchema, declareOnce_eq, declaresSchema_iff, declarationList_eq_layout, regLayout]
  simp [State.moveTo, State.setSession, State.publishAll, State.commit, regSnapshot, Function.comp_def]

/-! ## XFER_EXIT, RETRY and DONE -/

/-- Settles O34: command mode is the read flag `'1'`. -/
theorem exitDecisionFollowsReadFlag : Obligations.ExitDecisionFollowsReadFlag := by
  intro s S hp hs
  rw [exec_step_at hp, internalStep, hp]
  simp only [xferExitStep, onSession_some _ hs, commandMode, decide_eq_true_eq]
  refine ⟨fun hflag => ?_, fun hflag => ?_⟩
  · rw [if_neg hflag]
    rfl
  · rw [if_pos hflag]
    rfl

/-- Settles O36: the budget decides. -/
theorem restartIsBoundedByRetryLimit : Obligations.RestartIsBoundedByRetryLimit := by
  intro s S hp hs
  rw [exec_step_at hp, internalStep, hp]
  simp only [retryStep, onSession_some _ hs]
  refine ⟨fun hleft => ?_, fun hspent => ?_⟩
  · rw [if_pos hleft]
    rfl
  · rw [if_neg (Nat.not_lt.mpr hspent)]
    rfl

/-- Settles O38: the record holds the result that goes to the host. -/
theorem doneDiscardsSessionAndCountsCycle : Obligations.DoneDiscardsSessionAndCountsCycle := by
  intro s S r hp hs hr
  rw [exec_step_at hp, internalStep, hp]
  simp only [doneStep, onSession_some _ hs, hr, onField_some]
  rfl

/-! ## The prompts -/

/-- Cancel at a prompt ends the session through the closing disconnect (R258, R268, R269). -/
theorem exec_cancel_at_prompt {s : State} {S : Session} (hs : s.session = some S)
    (hp : s.phase = .awaitPassword ∨ s.phase = .cmdPrompt ∨ s.phase = .awaitCmdText) :
    exec .cancel s =
      .next (((s.record .cancel).setSession { S with result := some .cancelled }).moveTo .discFinal) := by
  rcases hp with hp | hp | hp <;> simp only [exec, execCancel, hp, endSession, onSession_some _ hs]

/-- Settles O40: the two answers at the password prompt. -/
theorem passwordPromptIsResumed : Obligations.PasswordPromptIsResumed := by
  intro s S bs hs hp
  refine ⟨?_, exec_cancel_at_prompt hs (.inl hp)⟩
  simp only [exec, execInput, hp, onSession_some _ hs]
  rfl

/-- A command chosen stages its head and asks for its text (R268). -/
theorem chooseCommand_of_session {s : State} {S : Session} (hs : s.session = some S) (c : Choice) (h : CmdHead) :
    chooseCommand c h s = .next { s with
      phase := .awaitCmdText, session := some { S with cmdHead := some h },
      trace := s.trace ++ [.choice c, .prompt .commandText] } := by
  rw [chooseCommand, onSession_some _ hs]
  simp [State.record, State.setSession, State.moveTo]

/-- Settles O41: the four answers at the choice prompt. -/
theorem choicePromptIsResumed : Obligations.ChoicePromptIsResumed := by
  intro s S hs hp
  refine ⟨?_, ?_, ?_, exec_cancel_at_prompt hs (.inr (.inl hp))⟩
  · rw [exec, execChoice, hp]
    exact chooseCommand_of_session hs .read .r1
  · rw [exec, execChoice, hp]
    exact chooseCommand_of_session hs .write .w1
  · rw [exec, execChoice, hp]
    exact onSession_some _ hs

/-- Settles O42: the two answers at the command-text prompt. -/
theorem commandTextPromptIsResumed : Obligations.CommandTextPromptIsResumed := by
  intro s S bs hs hp
  refine ⟨?_, exec_cancel_at_prompt hs (.inr (.inr hp))⟩
  simp only [exec, execInput, hp, onSession_some _ hs]
  rfl

/-! ## Out of turn -/

/-- Settles O60: each row's function has one equation for its own phase and one for every other, whose premise the hypothesis is. -/
theorem wireRowsAreRefusedOutOfTurn : Obligations.WireRowsAreRefusedOutOfTurn := by
  intro s z y pw t r
  refine ⟨fun hentry hfinal => ?disconnect, fun hp => ?ident, fun hp => ⟨?optsel, ?optselEncoded⟩, fun hp => ?password,
    fun hp => ⟨?read, ?write⟩, fun hident hresp i hi => ?received, fun hp => ?error⟩
  case received => rw [exec_rx (mem_rxRows.mp hi), receive_eq, if_neg (not_or.mpr ⟨hident, hresp⟩)]
  case disconnect => simp only [exec, execDisconnect]
  case ident => simp only [exec, execIdent]
  case optsel => simp only [exec, execOptsel]
  case optselEncoded => simp only [exec, execOptselEncoded]
  case password => simp only [exec, execPassword]
  case read => simp only [exec, execRead]
  case write => simp only [exec, execWrite]
  case error => simp only [exec, execError]

/-! ## The step of the machine -/

/-- With no command pending the block runs its own instruction (R241, R310). -/
theorem step_own {s : State} (h : s.commands = []) : Machine.step s = exec (ownInstr s) (claimCycle s) := by
  rw [Machine.step, h]

/-- A pending command is taken and its instruction run (log 2). -/
theorem step_command {s : State} {c : Command} {cs : List Command} {i : Instr} (h : s.commands = c :: cs)
    (hi : fetch s c = .ok i) : Machine.step s = exec i { s with commands := cs } := by
  simp only [Machine.step, h, hi]

/-- A command that is no instruction is refused. -/
theorem step_undecodable {s : State} {c : Command} {cs : List Command} {e : DecodeError} (h : s.commands = c :: cs)
    (he : fetch s c = .error e) : Machine.step s = .refused (.undecodable e) := by
  simp only [Machine.step, h, he]

theorem loopStopped_eq_false_iff {s : State} : loopStopped s = false ↔ ∀ n, s.cfg.loopStop = some n → s.counter < n := by
  unfold loopStopped
  cases s.cfg.loopStop <;> simp

theorem step_due {s : State} (h : s.commands = []) (hdue : sequencerDue s) :
    Machine.step s = exec (.start (daemonMode s.counter)) { s with daemonCycle := true } := by
  rw [step_own h, ownInstr, if_pos hdue, claimCycle_due hdue]

theorem step_not_due {s : State} (h : s.commands = []) (hdue : ¬sequencerDue s) : Machine.step s = exec .step s := by
  rw [step_own h, ownInstr, if_neg hdue, claimCycle_not_due hdue]

/-- Settles O1: a command's instruction, the sequencer's START where it is due, and STEP elsewhere. -/
theorem stepRunsDecodedInstruction : Obligations.StepRunsDecodedInstruction := by
  intro s
  refine ⟨fun c cs i => step_command, fun c cs e => step_undecodable, fun hc hp hd hn => ?_, fun hc hnot => ?_,
    fun hc hp hstop => ?_⟩
  · exact step_due hc ⟨hp, hd, loopStopped_eq_false_iff.mpr hn⟩
  · exact step_not_due hc fun ⟨hp, hd, _⟩ => hnot.elim (· hp) (· hd)
  · obtain ⟨n, hn, hle⟩ := hstop
    rw [step_not_due hc fun ⟨_, _, hrun⟩ => absurd (loopStopped_eq_false_iff.mp hrun n hn) (Nat.not_lt.mpr hle)]
    exact exec_step_waits (by rw [hp]; rfl)

end Sys2Proof.Machine
end

section
/-! Support and proofs. START and the operator's answers: the record START writes (R313, R314, R372), and the phases in which START and
each answer are refused (R315, R354). -/

namespace Sys2Proof.Machine

/-! ## START -/

theorem readFlagOf_eq (m : Mode) : readFlagOf m = if m = .program then 0x31 else 0x30 := by
  cases m <;> rfl

theorem shortCycleOf_eq (m : Mode) : shortCycleOf m = decide (m = .limitedRead) := by
  cases m <;> rfl

/-- Settles O39: the record is the fresh one, whose two fields that depend on the mode are written out above. -/
theorem startOpensCycleFromIdle : Obligations.StartOpensCycleFromIdle := by
  intro s m hp
  rw [exec_start_idle m hp, ← readFlagOf_eq, ← shortCycleOf_eq]
  rfl

/-! ## Refusals -/

/-- A rule that completes wherever the session record holds a value refuses nothing: without the record it faults (R33). -/
theorem onSession_next_ne_refused {s : State} {f : Session → State} {e : Refusal} :
    onSession s (fun S => .next (f S)) ≠ .refused e := by
  unfold onSession
  split
  · nofun
  · nofun

theorem execStart_refused_iff {m : Mode} {s : State} : execStart m s = .refused .startWhileActive ↔ s.phase ≠ .idle := by
  unfold execStart
  split
  next hidle => exact iff_of_false nofun (not_not.mpr hidle)
  next hactive => exact iff_of_true rfl hactive

theorem execInput_refused_iff {bs : Bytes} {s : State} :
    execInput bs s = .refused .answerNotExpected ↔ s.phase ∉ [.awaitPassword, .awaitCmdText] := by
  unfold execInput
  split
  next hp => exact iff_of_false onSession_next_ne_refused (by simp [hp])
  next hp => exact iff_of_false onSession_next_ne_refused (by simp [hp])
  next hpassword htext => exact iff_of_true rfl (by simpa using And.intro hpassword htext)

theorem execChoice_refused_iff {c : Choice} {s : State} :
    execChoice c s = .refused .answerNotExpected ↔ s.phase ≠ .cmdPrompt := by
  unfold execChoice
  split
  next hp =>
    refine iff_of_false ?_ (not_not.mpr hp)
    cases c <;> exact onSession_next_ne_refused
  next hp => exact iff_of_true rfl hp

theorem execCancel_refused_iff {s : State} :
    execCancel s = .refused .answerNotExpected ↔ s.phase ∉ [.awaitPassword, .cmdPrompt, .awaitCmdText] := by
  unfold execCancel
  split
  next hp => exact iff_of_false onSession_next_ne_refused (by simp [hp])
  next hp => exact iff_of_false onSession_next_ne_refused (by simp [hp])
  next hp => exact iff_of_false onSession_next_ne_refused (by simp [hp])
  next hpassword hchoice htext => exact iff_of_true rfl (by simpa using And.intro hpassword (And.intro hchoice htext))

/-- Settles O43: the phase decides in each of the four, since an answer in its place completes or faults. -/
theorem unfitCommandsAreRefused : Obligations.UnfitCommandsAreRefused := by
  intro s m bs c
  exact ⟨execStart_refused_iff, execInput_refused_iff, execChoice_refused_iff, execCancel_refused_iff⟩

end Sys2Proof.Machine
end

section
/-! Support and proofs. The ERROR step (R333, R335), and what only a Program session does (R345): of the coherent states, only
those of a Program session prompt, send a P1, R1 or W1 frame, or enter a phase of the command loop. -/

namespace Sys2Proof.Machine

open Terms

/-! ## A Program session's own -/

/-- The bytes begin as a P1, R1 or W1 frame does (R113, R114). -/
def IsCommandFrame (m : Bytes) : Prop :=
  ∃ x ∈ ([[0x50, 0x31], [0x52, 0x31], [0x57, 0x31]] : List Bytes), ([0x01] ++ x) <+: m

theorem not_isCommandFrame_disconnectMsg : ¬IsCommandFrame disconnectMsg := by
  rw [disconnectMsg_eq]
  simp [IsCommandFrame]

theorem not_isCommandFrame_identMsg : ¬IsCommandFrame identMsg := by
  simp [IsCommandFrame, identMsg]

/-- An option select begins with ACK or STX, a command frame with SOH. -/
theorem not_isCommandFrame_negotiationMsg (f : NegFraming) (z y : Byte) : ¬IsCommandFrame (negotiationMsg f z y) := by
  cases f with
  | raw => simp [IsCommandFrame, negotiationMsg, optselMsg]
  | encoded => simp [IsCommandFrame, negotiationMsg, optselEncodedMsg_eq]

/-- A session in Program mode is open. -/
def InProgram (s : State) : Prop := ∃ S, s.session = some S ∧ S.mode = .program

/-- The phases of the password and of the command loop (R345). -/
def commandPhases : List Phase := [.awaitPassword, .pwTx, .cmdPrompt, .awaitCmdText, .cmdTx, .discFinal]

/-- Only a Program session stands in one of them. -/
theorem SessionCoherent.mode_of_commandPhase {p : Params} {ph : Phase} {S : Session} (h : SessionCoherent p ph S)
    (hp : ph ∈ commandPhases) : S.mode = .program := by
  have hst := h.staged
  simp only [commandPhases, List.mem_cons, List.not_mem_nil, or_false] at hp
  rcases hp with rfl | rfl | rfl | rfl | rfl | rfl
  · exact hst
  · exact hst.1
  · exact hst
  · exact hst.1
  · exact hst.1
  · exact hst.1

section
variable {s t : State}

/-- DATA records Sink calls only: the declaration and the publishes (R262). -/
theorem mem_newEvents_publish {S S' : Session} {reg : List Entry} {e : Event}
    (h : e ∈ newEvents s (((((declareOnce S s).commit reg).publishAll).setSession S').moveTo .xferExit)) :
    (∃ l, e = .declareSchema l) ∨ ∃ k v, e = .publish k v := by
  rw [newEvents_publish, List.mem_append, List.mem_map] at h
  obtain hdeclare | ⟨entry, -, rfl⟩ := h
  · obtain ⟨-, rfl⟩ : declaresSchema S = true ∧ e = .declareSchema (declarationList s.registry) := by simpa using hdeclare
    exact .inl ⟨_, rfl⟩
  · exact .inr ⟨_, _, rfl⟩

/-- A phase's step prompts only in a Program session (R249, R266). -/
theorem SessionMove.prompt_mem {r : Bytes} {k : PromptKind} (h : SessionMove r s t)
    (hc : ∀ S, s.session = some S → SessionCoherent s.cfg s.phase S) (hk : .prompt k ∈ newEvents s t) : InProgram s := by
  cases h with
  | challengePrompt S _ _ hs hm => exact ⟨S, hs, hm⟩
  | askChoice S _ hs hcmd => exact ⟨S, hs, (hc S hs).mode_of_commandMode hcmd⟩
  | publish => obtain ⟨_, ⟨⟩⟩ | ⟨_, _, ⟨⟩⟩ := mem_newEvents_publish hk
  | _ => simp [newEvents] at hk

theorem ExecMove.prompt_mem {i : Instr} {k : PromptKind} (h : ExecMove s i t) (hc : s.Coherent)
    (hk : .prompt k ∈ newEvents s t) : InProgram s := by
  cases h with
  | session _ _ _ _ hmove => exact hmove.prompt_mem hc.record hk
  | drawn _ _ _ hmove => exact hmove.prompt_mem hc.record hk
  | command S c hd hp hs => exact ⟨S, hs, (hc.record S hs).mode_of_commandPhase (by simp [hp, commandPhases])⟩
  | _ => simp [newEvents] at hk

/-- A phase's step sends a command frame only in a Program session: of the senders, PW_TX and CMD_TX (R259, R270). -/
theorem SessionMove.commandFrame_mem {r m : Bytes} (h : SessionMove r s t)
    (hc : ∀ S, s.session = some S → SessionCoherent s.cfg s.phase S) (hm : .tx m ∈ newEvents s t)
    (hf : IsCommandFrame m) : InProgram s := by
  cases h with
  | pwTx S _ hp hs => exact ⟨S, hs, (hc S hs).mode_of_commandPhase (by simp [hp, commandPhases])⟩
  | cmdTx S _ _ hp hs => exact ⟨S, hs, (hc S hs).mode_of_commandPhase (by simp [hp, commandPhases])⟩
  | discEntry | discFinal =>
    obtain rfl : m = disconnectMsg := by simpa [newEvents] using hm
    exact absurd hf not_isCommandFrame_disconnectMsg
  | identTx =>
    obtain rfl : m = identMsg := by simpa [newEvents] using hm
    exact absurd hf not_isCommandFrame_identMsg
  | negTx S z =>
    obtain rfl : m = negotiationMsg s.cfg.negFraming z (modeDigit S) := by simpa [newEvents] using hm
    exact absurd hf (not_isCommandFrame_negotiationMsg _ _ _)
  | publish => obtain ⟨_, ⟨⟩⟩ | ⟨_, _, ⟨⟩⟩ := mem_newEvents_publish hm
  | _ => simp [newEvents] at hm

theorem ExecMove.commandFrame_mem {i : Instr} {m : Bytes} (h : ExecMove s i t) (hc : s.Coherent)
    (hm : .tx m ∈ newEvents s t) (hf : IsCommandFrame m) : InProgram s := by
  cases h with
  | session _ _ _ _ hmove => exact hmove.commandFrame_mem hc.record hm hf
  | drawn _ _ _ hmove => exact hmove.commandFrame_mem hc.record hm hf
  | _ => simp [newEvents] at hm

/-- An instruction of a cycle ends in a phase of the command loop only in a Program session: the state it leaves is coherent,
and no rule writes the mode. -/
theorem ExecMove.commandPhase {i : Instr} (h : ExecMove s i t) (hc : s.Coherent) (hs : s.phase ≠ .idle)
    (hp : t.phase ∈ commandPhases) : InProgram s := by
  have ht := h.coherent hc
  obtain ⟨S', hS'⟩ : ∃ S', t.session = some S' :=
    Option.ne_none_iff_exists'.mp fun hnone => by simp [ht.idleIff.mpr hnone, commandPhases] at hp
  obtain ⟨S, hS, hw⟩ := h.writtenByRules hs hS'
  exact ⟨S, hS, hw.mode ▸ (ht.record S' hS').mode_of_commandPhase hp⟩

end

/-- Settles O59: each of the three is a Program session's own. -/
theorem readSessionNeverPromptsOrCommands : Obligations.ReadSessionNeverPromptsOrCommands := by
  intro i s t S es hc hs hread hexec htrace
  obtain rfl := newEvents_of_append htrace
  have hmove := exec_move hexec
  have hidle : s.phase ≠ .idle := fun hp => by simp [hc.idleIff.mp hp] at hs
  have hnot : ¬InProgram s := fun ⟨S₀, hs₀, hm⟩ => hread (Option.some.inj (hs₀.symm.trans hs) ▸ hm)
  exact ⟨fun k hk => hnot (hmove.prompt_mem hc hk),
    fun m hm x hx hpre => hnot (hmove.commandFrame_mem hc hm ⟨x, hx, hpre⟩),
    fun hp => hnot (hmove.commandPhase hc hidle hp)⟩

/-! ## The ERROR step -/

/-- STEP in phase ERROR and the instruction ERROR are one step (R333). -/
theorem exec_errorStep {s : State} {i : Instr} (hp : s.phase = .error) (hi : i = .step ∨ i = .error) :
    exec i s = reportStep s := by
  rcases hi with rfl | rfl
  · rw [exec_step_at hp, internalStep, hp]
  · rw [exec, execError, hp]

/-- An error reported is one more call of the Sink, with its text (R353). -/
theorem sinkCalls_reportError (p : Params) (T : List Event) (k : ErrorKind) :
    sinkCalls p (T ++ [.reportError k]) = sinkCalls p T ++ [.reportError (errorText p k)] :=
  List.filterMap_append

/-- An error reported sends no byte (R335). -/
theorem transmitStream_reportError (T : List Event) (k : ErrorKind) :
    transmitStream (T ++ [.reportError k]) = transmitStream T := by
  simp [transmitStream, sentBytes]

/-- Settles O37: the step finds the record and the kind. -/
theorem errorStepReportsAndAbandons : Obligations.ErrorStepReportsAndAbandons := by
  intro s S k i hi hp hs hk
  refine ⟨?_, sinkCalls_reportError s.cfg s.trace k, transmitStream_reportError s.trace k⟩
  rw [exec_errorStep hp hi, reportStep, onSession_some _ hs, hk, onField_some]
  rfl

end Sys2Proof.Machine
end

section
/-! Support and proofs. Reset (R371, R375, R376): a schema with unique keys resets to a coherent state, one with a duplicate key is
refused. -/

namespace Sys2Proof.Machine

/-- Reset leaves IDLE with no session record and no daemon cycle, so coherence is what the schema decides: the registry is the
schema (R55), and its keys are unique. -/
theorem resetWith_coherent {p : Params} (hunique : keysUnique p.schema) : (State.resetWith p).Coherent where
  idleIff := ⟨fun _ => rfl, fun _ => rfl⟩
  layout := rfl
  unique := hunique
  record := by rintro _ ⟨⟩
  daemonOutsideIdle := by rintro ⟨⟩
  daemonRegime := by rintro ⟨⟩
  cadence := by rintro ⟨⟩

/-- Settles O45: `State.reset` is reset under the default parameters, whose schema has unique keys, and `boot` tests its schema for
just that. -/
theorem bootIsCoherentOrRefused : Obligations.BootIsCoherentOrRefused :=
  ⟨resetWith_coherent (show keysUnique defaultParams.schema by decide),
    fun _ => ⟨resetWith_coherent, fun hdup => if_neg hdup⟩⟩

end Sys2Proof.Machine
end
